-- ==== Sys2Proof/Word.lean ====
section
/-! DEFINITION. The widths of SBX as types: what the spec treats as bits is a bit vector of the stated width.
Only the plain types stand here; the field and order helpers stand in Decode and Machine/Operands. -/

namespace Sys2Proof

/-- A byte, and equally an octet of the received text: 8 bits (R9). -/
abbrev Byte := BitVec 8

/-- A nibble: 4 bits, the value of one hexadecimal character (R9). -/
abbrev Nibble := BitVec 4

/-- The width of `crc`, `exp` and of a checksum: `CRC_WIDTH` = 32 bits (R7, R20). -/
abbrev CrcWord := BitVec 32

/-- The command word `op[3:0], arg[7:0]`: `CMD_WIDTH` = 12 bits (R7, R70). -/
abbrev CmdWord := BitVec 12

/-- The data of a response: `RSP_DATA_WIDTH` = 32 bits (R7, R75). -/
abbrev RspData := BitVec 32

/-- An error code, the width of the register `err`: 4 bits (R20, R230). -/
abbrev ErrCode := BitVec 4

end Sys2Proof
end

