-- ==== Sys2Proof/Syntax.lean ====
section
/-! DEFINITION. The commands of SBX (R72), their mnemonics, and one line of the assembler's text as data (R81).
Operands carry their width in their type, so a command of `Instr` fits its word by construction. -/

namespace Sys2Proof

/-- The twelve commands, one constructor per row of the opcode map (R72), in the map's order. -/
inductive Instr where
  /-- `NOP` (R190). -/
  | nop
  /-- `CRC.INIT` (R115). -/
  | crcInit
  /-- `CRC.BYTE b` (R116). -/
  | crcByte (b : Byte)
  /-- `CRC.NIB n` (R118). -/
  | crcNib (n : Nibble)
  /-- `CRC.RD k` (R120). -/
  | crcRd (k : BitVec 2)
  /-- `EXP.BYTE b` (R124). -/
  | expByte (b : Byte)
  /-- `CRC.VFY` (R128). -/
  | crcVfy
  /-- `SER.NIB n` (R140). -/
  | serNib (n : Nibble)
  /-- `DES.INIT` (R164). -/
  | desInit
  /-- `DES.SYM c` (R166). -/
  | desSym (c : Byte)
  /-- `DES.END` (R172). -/
  | desEnd
  /-- `RST` (R192). -/
  | rst
  deriving DecidableEq, Repr

/-- The mnemonics of R72. -/
inductive Mnemonic where
  | nop | crcInit | crcByte | crcNib | crcRd | expByte | crcVfy | serNib | desInit | desSym | desEnd | rst
  deriving DecidableEq, Repr

/-- A line of the assembler's text, read (R81): a mnemonic and, where one is written, an unsigned number. -/
structure AsmLine where
  mnemonic : Mnemonic
  operand : Option Nat
  deriving DecidableEq, Repr

/-- The mnemonic of a command. -/
def Instr.mnemonic : Instr → Mnemonic
  | .nop => .nop
  | .crcInit => .crcInit
  | .crcByte _ => .crcByte
  | .crcNib _ => .crcNib
  | .crcRd _ => .crcRd
  | .expByte _ => .expByte
  | .crcVfy => .crcVfy
  | .serNib _ => .serNib
  | .desInit => .desInit
  | .desSym _ => .desSym
  | .desEnd => .desEnd
  | .rst => .rst

/-- The operand of a command as a number, where it has one (R71). -/
def Instr.operand : Instr → Option Nat
  | .nop => none
  | .crcInit => none
  | .crcByte b => some b.toNat
  | .crcNib n => some n.toNat
  | .crcRd k => some k.toNat
  | .expByte b => some b.toNat
  | .crcVfy => none
  | .serNib n => some n.toNat
  | .desInit => none
  | .desSym c => some c.toNat
  | .desEnd => none
  | .rst => none

/-- A command as a line of the assembler's text. -/
def Instr.line (i : Instr) : AsmLine := ⟨i.mnemonic, i.operand⟩

end Sys2Proof
end

