-- ==== Sys2Proof/WellFormed.lean ====
section
/-! DEFINITION. When a line of the assembler's text is a command (R71, R81): its operand is there exactly where the
mnemonic takes one, and it fits the field. A command of `Instr` is well-formed by its types. -/

namespace Sys2Proof

/-- The width of the mnemonic's operand in bits, none where it takes none (R59, R71). -/
def Mnemonic.operandBits : Mnemonic → Option Nat
  | .nop => none
  | .crcInit => none
  | .crcByte => some 8
  | .crcNib => some 4
  | .crcRd => some 2
  | .expByte => some 8
  | .crcVfy => none
  | .serNib => some 4
  | .desInit => none
  | .desSym => some 8
  | .desEnd => none
  | .rst => none

/-- R81: "An operand that does not fit the field (a nibble above 15, an index above 3, a byte above 255) is an
assembler error, never truncated"; a mnemonic with an operand takes one, the others none. -/
def AsmLine.wellFormed (l : AsmLine) : Bool :=
  match l.mnemonic.operandBits, l.operand with
  | none, none => true
  | some bits, some n => n < 2 ^ bits
  | none, some _ => false
  | some _, none => false

/-- A command is well-formed when its line is; every command is (`Laws.instr_wellFormed`). -/
def Instr.wellFormed (i : Instr) : Bool := i.line.wellFormed

end Sys2Proof
end

