-- ==== Sys2Proof/Decode.lean ====
section
/-! DEFINITION. The command word (R70 to R72, R79): the decoder, total on all 4096 words and refusing by name, the
encoder, and the opcode map's match and mask values as data. -/

namespace Sys2Proof

/-- Why a word is no command (R79). An illegal word raises `IllegalCommand`, whichever of the two holds. -/
inductive DecodeError where
  /-- `op` is `0xB`, `0xC`, `0xD` or `0xE`, reserved for later versions of the command set. -/
  | reservedOp (op : BitVec 4)
  /-- A bit of `arg` that R71 says must be zero is one. -/
  | mustBeZero (op : BitVec 4) (arg : Byte)
  deriving DecidableEq, Repr

/-- `cmd[11:8]` (R70). -/
def opField (w : CmdWord) : BitVec 4 := w.extractLsb' 8 4

/-- `cmd[7:0]` (R70). -/
def argField (w : CmdWord) : Byte := w.extractLsb' 0 8

/-- A command without operand: `arg` must be zero (R71). -/
def decodeNone (w : CmdWord) (i : Instr) : Except DecodeError Instr :=
  if argField w = 0 then .ok i else .error (.mustBeZero (opField w) (argField w))

/-- A command with a nibble operand `arg[3:0]`: `arg[7:4]` must be zero (R71). -/
def decodeNibble (w : CmdWord) (mk : Nibble → Instr) : Except DecodeError Instr :=
  if (argField w).extractLsb' 4 4 = 0 then .ok (mk ((argField w).extractLsb' 0 4))
  else .error (.mustBeZero (opField w) (argField w))

/-- A command with an index operand `arg[1:0]`: `arg[7:2]` must be zero (R71). -/
def decodeIndex (w : CmdWord) (mk : BitVec 2 → Instr) : Except DecodeError Instr :=
  if (argField w).extractLsb' 2 6 = 0 then .ok (mk ((argField w).extractLsb' 0 2))
  else .error (.mustBeZero (opField w) (argField w))

/-- The command a word stands for (R72), or why it stands for none (R79). It reads the word alone, never the state
(R70). -/
def decode (w : CmdWord) : Except DecodeError Instr :=
  match opField w with
  | 0x0#4 => decodeNone w .nop
  | 0x1#4 => decodeNone w .crcInit
  | 0x2#4 => .ok (.crcByte (argField w))
  | 0x3#4 => decodeNibble w .crcNib
  | 0x4#4 => decodeIndex w .crcRd
  | 0x5#4 => .ok (.expByte (argField w))
  | 0x6#4 => decodeNone w .crcVfy
  | 0x7#4 => decodeNibble w .serNib
  | 0x8#4 => decodeNone w .desInit
  | 0x9#4 => .ok (.desSym (argField w))
  | 0xA#4 => decodeNone w .desEnd
  | 0xF#4 => decodeNone w .rst
  | _ => .error (.reservedOp (opField w))

/-- The word of a command (R72, R81): `op`, then the operand in the low bits of `arg`, the rest zero. -/
def encode : Instr → CmdWord
  | .nop => 0x0#4 ++ 0#8
  | .crcInit => 0x1#4 ++ 0#8
  | .crcByte b => 0x2#4 ++ b
  | .crcNib n => 0x3#4 ++ 0#4 ++ n
  | .crcRd k => 0x4#4 ++ 0#6 ++ k
  | .expByte b => 0x5#4 ++ b
  | .crcVfy => 0x6#4 ++ 0#8
  | .serNib n => 0x7#4 ++ 0#4 ++ n
  | .desInit => 0x8#4 ++ 0#8
  | .desSym c => 0x9#4 ++ c
  | .desEnd => 0xA#4 ++ 0#8
  | .rst => 0xF#4 ++ 0#8

/-- The match and mask values of a mnemonic's row of the opcode map (R72): a word is of the row when
`w &&& mask = match`. -/
def opcodeRow : Mnemonic → CmdWord × CmdWord
  | .nop => (0x000, 0xFFF)
  | .crcInit => (0x100, 0xFFF)
  | .crcByte => (0x200, 0xF00)
  | .crcNib => (0x300, 0xFF0)
  | .crcRd => (0x400, 0xFFC)
  | .expByte => (0x500, 0xF00)
  | .crcVfy => (0x600, 0xFFF)
  | .serNib => (0x700, 0xFF0)
  | .desInit => (0x800, 0xFFF)
  | .desSym => (0x900, 0xF00)
  | .desEnd => (0xA00, 0xFFF)
  | .rst => (0xF00, 0xFFF)

/-- The decoder's answer on an instruction of the opcode table given as a number of `nbits` bits. SBX has one word per
command, of 12 bits, and no byte order; the bits above `nbits` are zero, and a number that does not fit the 12-bit
command port is no command (log 8). -/
def decodeTableWord (nbits w : Nat) : Option Instr :=
  let v := w % 2 ^ nbits
  if v < 2 ^ 12 then
    match decode (BitVec.ofNat 12 v) with
    | .ok i => some i
    | .error _ => none
  else none

end Sys2Proof
end

