-- ==== Sys2Proof/Config.lean ====
section
/-! DEFINITION. The configuration record of R7: what an SBX is built with. The record's TYPE stands here; the
values this spec takes stand in Machine/Params.lean (`Machine.sbx`), where a repair can mend them.

SBX leaves no value open, so the record holds no free value: the spec has no undefined result (93, part 1).
The arithmetic takes the record as an argument, so a claim can range over it or name the value it rests on. -/

namespace Sys2Proof

/-- The parameters of R7, one field per row of its table but `CRC_DATAPATH`, which "the model ignores" (R7, R112;
log 13). The width and order rows are carried as data for a claim to name: the types of Word.lean and the shape of
`step1`, `sym4` and `packBit` are built for the values the spec takes. -/
structure Config where
  /-- `CRC_WIDTH`. -/
  crcWidth : Nat
  /-- `CRC_POLY_REFLECTED`: the generator polynomial, reflected. -/
  crcPolyReflected : CrcWord
  /-- `CRC_INIT`: the register value a session starts from. -/
  crcInit : CrcWord
  /-- `CRC_XOROUT`: the final XOR. -/
  crcXorOut : CrcWord
  /-- `CRC_REFLECTED`: least-significant bit first, register shifts right. -/
  crcReflected : Bool
  /-- `CKSUM_LEN`, in bytes. -/
  cksumLen : Nat
  /-- `SALT_LEN`, in bytes (host only). -/
  saltLen : Nat
  /-- `SYM0`: the octet of bit 0. -/
  sym0 : Byte
  /-- `SYM1`: the octet of bit 1. -/
  sym1 : Byte
  /-- `BITS_PER_NIBBLE`. -/
  bitsPerNibble : Nat
  /-- `NIBBLES_PER_BYTE`. -/
  nibblesPerByte : Nat
  /-- `CMD_WIDTH`. -/
  cmdWidth : Nat
  /-- `RSP_DATA_WIDTH`. -/
  rspDataWidth : Nat
  deriving DecidableEq, Repr

end Sys2Proof
end

