-- ==== Sys2Proof/Machine/Params.lean ====
section
/-! DEFINITION. The parameter values of R7, which every meaning of the machine is built with. -/

namespace Sys2Proof.Machine

/-- The values of R7's table. UNVERIFIED: the CRC-32 parameter set (R101, decision D1, which the spec takes from general
knowledge; log 5) and the octets of space and tab (R141, decision D2; log 6). Unsafe: a claim that names a checksum or
an octet rests on them. -/
def sbx : Config where
  crcWidth := 32
  crcPolyReflected := 0xEDB88320
  crcInit := 0xFFFFFFFF
  crcXorOut := 0xFFFFFFFF
  crcReflected := true
  cksumLen := 4
  saltLen := 8
  sym0 := 0x20
  sym1 := 0x09
  bitsPerNibble := 4
  nibblesPerByte := 2
  cmdWidth := 12
  rspDataWidth := 32

end Sys2Proof.Machine
end

