-- ==== Sys2Proof/Machine/CrcArith.lean ====
section
/-! DEFINITION. The checksum function (R101 to R110), over the configuration record so that a claim can range over the
parameter set (D1). -/

namespace Sys2Proof.Machine

/-- One bit step (R102): a logical right shift, and the polynomial where bit 0 was one. -/
def step1 (cfg : Config) (c : CrcWord) : CrcWord :=
  (c >>> 1) ^^^ (if c.getLsbD 0 then cfg.crcPolyReflected else 0)

/-- `step1` applied `k` times (R103). -/
def stepk (cfg : Config) (c : CrcWord) : Nat → CrcWord
  | 0 => c
  | k + 1 => step1 cfg (stepk cfg c k)

/-- The byte update (R104). -/
def upd8 (cfg : Config) (c : CrcWord) (b : Byte) : CrcWord := stepk cfg (c ^^^ b.setWidth 32) 8

/-- The nibble update (R105). -/
def upd4 (cfg : Config) (c : CrcWord) (n : Nibble) : CrcWord := stepk cfg (c ^^^ n.setWidth 32) 4

/-- `sum(c)` (R106): the checksum a register value stands for. -/
def checksum (cfg : Config) (c : CrcWord) : CrcWord := c ^^^ cfg.crcXorOut

/-- The register after a message, from `c` (the loop of R107). -/
def updBytes (cfg : Config) (c : CrcWord) (m : List Byte) : CrcWord := m.foldl (upd8 cfg) c

/-- `CRC32(m)` (R107). -/
def crc32 (cfg : Config) (m : List Byte) : CrcWord := checksum cfg (updBytes cfg cfg.crcInit m)

/-- The single-bit update (R110). -/
def updBit (cfg : Config) (c : CrcWord) (d : Bool) : CrcWord := step1 cfg (c ^^^ (BitVec.ofBool d).setWidth 32)

/-- The register after a bit stream, from `c` (R110). -/
def updBits (cfg : Config) (c : CrcWord) (ds : List Bool) : CrcWord := ds.foldl (updBit cfg) c

/-- The bits a nibble appends to the stream, least-significant first (R110). -/
def nibbleBits (n : Nibble) : List Bool := (List.range 4).map n.getLsbD

/-- The bits a byte appends to the stream, least-significant first (R55, R110). -/
def byteBits (b : Byte) : List Bool := (List.range 8).map b.getLsbD

/-- `T4[i]` (R108). -/
def t4 (cfg : Config) (i : Nibble) : CrcWord := stepk cfg (i.setWidth 32) 4

/-- `T8[i]` (R108). -/
def t8 (cfg : Config) (i : Byte) : CrcWord := stepk cfg (i.setWidth 32) 8

/-- The nibble update by table (R108). -/
def upd4ByTable (cfg : Config) (c : CrcWord) (n : Nibble) : CrcWord :=
  (c >>> 4) ^^^ t4 cfg ((c ^^^ n.setWidth 32).extractLsb' 0 4)

/-- The byte update by table (R108). -/
def upd8ByTable (cfg : Config) (c : CrcWord) (b : Byte) : CrcWord :=
  (c >>> 8) ^^^ t8 cfg ((c ^^^ b.setWidth 32).extractLsb' 0 8)

end Sys2Proof.Machine
end

