-- ==== Sys2Proof/Machine/Operands.lean ====
section
/-! DEFINITION. The orders of data (R52 to R54, R56) and the whitespace alphabet (R140, R160): the forms in which the
commands take their operands apart and put their results together. -/

namespace Sys2Proof.Machine

/-- The high nibble `b[7:4]` (R9). -/
def hiNibble (b : Byte) : Nibble := b.extractLsb' 4 4

/-- The low nibble `b[3:0]` (R9). -/
def loNibble (b : Byte) : Nibble := b.extractLsb' 0 4

/-- Byte `k` of a checksum, byte 0 the most significant (R52, R120): `s[31 - 8*k : 24 - 8*k]`. -/
def checksumByte (s : CrcWord) (k : BitVec 2) : Byte := s.extractLsb' (24 - 8 * k.toNat) 8

/-- The four bytes of a checksum, most-significant first (R52). -/
def checksumBytes (s : CrcWord) : List Byte :=
  [s.extractLsb' 24 8, s.extractLsb' 16 8, s.extractLsb' 8 8, s.extractLsb' 0 8]

/-- The symbol of a bit (R54, R140): `SYM0` for 0, `SYM1` for 1. -/
def symbol (cfg : Config) (d : Bool) : Byte := if d then cfg.sym1 else cfg.sym0

/-- The four symbols of a nibble, most-significant bit first, the first in the most significant lane (R76, R140). -/
def sym4 (cfg : Config) (n : Nibble) : RspData :=
  symbol cfg (n.getLsbD 3) ++ symbol cfg (n.getLsbD 2) ++ symbol cfg (n.getLsbD 1) ++ symbol cfg (n.getLsbD 0)

/-- An octet is accepted when it is a space or a tab, dropped otherwise (R160). -/
def accepted (cfg : Config) (c : Byte) : Bool := c = cfg.sym0 || c = cfg.sym1

/-- The bit of an accepted octet (R166): space 0, tab 1. -/
def symbolBit (cfg : Config) (c : Byte) : BitVec 1 := if c = cfg.sym0 then 0 else 1

end Sys2Proof.Machine
end

