-- ==== Sys2Proof/Machine/State.lean ====
section
/-! DEFINITION. The state of SBX: the eight registers of R20, the response port of R41, and what the host puts on the
input ports of R40 at the coming clocks. Plain data, no function. -/

namespace Sys2Proof.Machine

/-- The error kinds of R230, every row of its table but "none" and the reserved codes. -/
inductive ErrorKind where
  /-- Code 1, the host's: "empty key". -/
  | invalidKey
  /-- Code 2, raised by `DES.END`: an odd number of nibbles. -/
  | hexError
  /-- Code 3, the host's: decrypted bytes not valid UTF-8. -/
  | utf8Error
  /-- Code 4, raised by `DES.END`: nothing accepted, or a bit count that is no multiple of 4. -/
  | invalidFormat
  /-- Code 5, raised by `CRC.VFY`: checksum mismatch. -/
  | integrityError
  /-- Code 6, the host's: file not found or write failure. -/
  | ioError
  /-- Code 7, raised by `EXP.BYTE` and `CRC.VFY`: a checksum slice that is not four bytes. -/
  | sliceError
  /-- Code 8, raised by `DES.END`: empty input. -/
  | emptyFile
  /-- Code 9, never raised (R170): reserved for the source's defensive check. -/
  | invalidCharacters
  /-- Code 15, raised by an illegal word (R79). -/
  | illegalCommand
  deriving DecidableEq, Repr

/-- The response of a step (R75). Kinds 5 and 6 are reserved and "never produced" (U6): no constructor stands for
them. -/
inductive Rsp where
  /-- Kind 0: completed, nothing to return. -/
  | ack
  /-- Kind 1: the test of `CRC.VFY` or `DES.END` passed. -/
  | pass
  /-- Kind 2: `DES.SYM` completed a high nibble. -/
  | nibh (n : Nibble)
  /-- Kind 3: a byte, of `CRC.RD` or of `DES.SYM`. -/
  | byte (b : Byte)
  /-- Kind 4: four symbol octets of `SER.NIB`, first symbol in bits 31 to 24 (R76). -/
  | sym4 (d : RspData)
  /-- Kind 7: the error code, of a step that raised a fault or was taken in the fault state. -/
  | err (e : ErrCode)
  deriving DecidableEq, Repr

/-- What the host puts on the input ports at one clock (R40). -/
structure ClockIn where
  /-- The reset port, active high. -/
  rst : Bool
  /-- The port `cmd_valid`. -/
  cmdValid : Bool
  /-- The port `cmd`. -/
  cmd : CmdWord
  deriving DecidableEq, Repr

/-- The machine: the eight registers of R20 under their own names, then the ports. -/
structure State where
  /-- The CRC remainder, reflected, before the final XOR (R21). -/
  crc : CrcWord
  /-- The received checksum, most-significant byte first (R22). -/
  exp : CrcWord
  /-- How many bytes `exp` was loaded with in this session (R22). -/
  expn : BitVec 3
  /-- The deserializer's shift register, newest bit in bit 0 (R23). -/
  sh : Byte
  /-- Accepted bits of this session, modulo 8 (R23). -/
  bcnt : BitVec 3
  /-- An octet was presented in this session (R31). -/
  any : Bool
  /-- A space or tab was accepted in this session (R32). -/
  ws : Bool
  /-- The sticky error code, 0 for no fault (R35). -/
  err : ErrCode
  /-- The response port (R41): the response of the step just taken, none while `rsp_valid` is 0. The model's own field:
  it holds the response half of R11's step (log 3). -/
  rsp : Option Rsp
  /-- The input ports at the coming clocks, next clock first. The model's own field, the host's behaviour as data
  (R30, R40; log 1). -/
  inputs : List ClockIn
  deriving DecidableEq, Repr

/-- Why the machine stops. NOTHING STOPS SBX: a fault of SBX is an error code in `err` and a next state (R236, R240;
log 4), so no constructor is needed. -/
inductive Fault where
  deriving DecidableEq, Repr

/-- Why the model gives an instruction no meaning. -/
inductive Refusal where
  /-- Raised only by an arm of `exec` whose instruction has no meaning yet, of which there is none: safe, the model
  stops where the hardware goes on. -/
  | notModelled (mnemonic : String)
  deriving DecidableEq, Repr

/-- The machine right after reset (R20, R45, R270): `crc` at `CRC_INIT`, every other register zero, no response on the
response port. Nothing is on the input ports yet: the host's inputs come with `inputs` (log 8). -/
def State.reset : State where
  crc := sbx.crcInit
  exp := 0
  expn := 0
  sh := 0
  bcnt := 0
  any := false
  ws := false
  err := 0
  rsp := none
  inputs := []

end Sys2Proof.Machine
end

