-- ==== Sys2Proof/Machine/Ops.lean ====
section
/-! DEFINITION. The named operations over the registers and the ports: responding, taking a fault and leaving the fault
state, the writes the commands make, and what a clock does that is no command. -/

namespace Sys2Proof.Machine

/-- The code of an error kind (R230). -/
def ErrorKind.code : ErrorKind → ErrCode
  | .invalidKey => 1
  | .hexError => 2
  | .utf8Error => 3
  | .invalidFormat => 4
  | .integrityError => 5
  | .ioError => 6
  | .sliceError => 7
  | .emptyFile => 8
  | .invalidCharacters => 9
  | .illegalCommand => 15

/-- The error kind of a code, none for 0 and the reserved codes 10 to 14 (R230). -/
def ErrorKind.ofCode (e : ErrCode) : Option ErrorKind :=
  [ErrorKind.invalidKey, .hexError, .utf8Error, .invalidFormat, .integrityError, .ioError, .sliceError, .emptyFile,
    .invalidCharacters, .illegalCommand].find? fun k => k.code = e

/-- `rsp_kind` of a response (R75). -/
def Rsp.kind : Rsp → BitVec 3
  | .ack => 0
  | .pass => 1
  | .nibh _ => 2
  | .byte _ => 3
  | .sym4 _ => 4
  | .err _ => 7

/-- `rsp_data` of a response (R75): narrow values zero-extended, the bits above the stated field zero. -/
def Rsp.data : Rsp → RspData
  | .ack => 0
  | .pass => 0
  | .nibh n => n.setWidth 32
  | .byte b => b.setWidth 32
  | .sym4 d => d
  | .err e => e.setWidth 32

/-- `respond <KIND>(data)` (R10, R75): the response of this step. -/
def State.respond (s : State) (r : Rsp) : State := { s with rsp := some r }

/-- Taking a fault (R236): `raise E` writes the code into `err`, responds `ERR` with it, and does nothing else; nothing
is saved (R234) and control goes nowhere. Used only in a step that began with `err = 0`. -/
def State.raise (s : State) (e : ErrorKind) : State := { s with err := e.code }.respond (.err e.code)

/-- Every register at its reset value (R45, R192): the only way out of the fault state, which restores nothing (R244).
The ports are left to the caller. -/
def State.clearAll (s : State) : State :=
  { s with crc := sbx.crcInit, exp := 0, expn := 0, sh := 0, bcnt := 0, any := false, ws := false, err := 0 }

/-- The order of a step (R240): in the fault state nothing but `RST` is executed; every other command responds
`ERR(err)` and changes no register. `t` is the state the command gives where `err = 0`. -/
def State.unlessFaulted (s t : State) : State := if s.err = 0 then t else s.respond (.err s.err)

/-- An illegal word (R79): `IllegalCommand` where `err = 0`, `ERR(err)` in the fault state (R240). -/
def State.illegalWord (s : State) : State := s.unlessFaulted (s.raise .illegalCommand)

/-- A clock with `rst = 1` (R40, R270): the reset values, no step, no response; `rsp_valid = 0`. -/
def State.resetClock (s : State) : State := { s.clearAll with rsp := none }

/-- A clock with `cmd_valid = 0` (R40): no step, no register changes, no response. -/
def State.idleClock (s : State) : State := { s with rsp := none }

/-- Starting a CRC session (R115): `crc`, `exp`, `expn`. -/
def State.startCrc (s : State) : State := { s with crc := sbx.crcInit, exp := 0, expn := 0 }

/-- Advancing the CRC register (R116, R118). -/
def State.setCrc (s : State) (c : CrcWord) : State := { s with crc := c }

/-- Loading the next checksum byte (R124): `exp <- {exp[23:0], b}`, `expn <- expn + 1`. -/
def State.loadExp (s : State) (b : Byte) : State :=
  { s with exp := s.exp.extractLsb' 0 24 ++ b, expn := s.expn + 1 }

/-- The codec registers cleared (R164, and R172 on `PASS`). -/
def State.clearCodec (s : State) : State := { s with sh := 0, bcnt := 0, any := false, ws := false }

/-- Packing an accepted bit (R166): `sh <- {sh[6:0], d}`, `bcnt <- (bcnt + 1) mod 8`. -/
def State.packBit (s : State) (d : BitVec 1) : State :=
  { s with sh := s.sh.extractLsb' 0 7 ++ d, bcnt := s.bcnt + 1 }

/-- The port `rsp_valid` (R41). -/
def State.rspValid (s : State) : Bool := s.rsp.isSome

/-- The port `rsp_kind` (R41), with no value while `rsp_valid = 0`: there the port has "any value" and the model no
observation (U13; log 3). -/
def State.rspKind (s : State) : Option (BitVec 3) := s.rsp.map Rsp.kind

/-- The port `rsp_data` (R41), with no value while `rsp_valid = 0` (U13; log 3). -/
def State.rspData (s : State) : Option RspData := s.rsp.map Rsp.data

/-- The port `err_o` (R41). -/
def State.errO (s : State) : ErrCode := s.err

/-- The port `fault_o` (R41, R246): level-sensitive, 1 when `err != 0`. -/
def State.faultO (s : State) : Bool := s.err != 0

end Sys2Proof.Machine
end

