-- ==== Sys2Proof/Machine/Flags.lean ====
section
/-! DEFINITION. The flags `any` and `ws` (R31, R32) and the tests that read the status: what `DES.END`, `CRC.VFY` and
`EXP.BYTE` find, and what a `DES.SYM` reports. SBX has no condition codes (R33). -/

namespace Sys2Proof.Machine

/-- `any <- 1`: every `DES.SYM`, accepted or dropped (R31, R166). -/
def State.noteOctet (s : State) : State := { s with any := true }

/-- `ws <- 1`: a `DES.SYM` whose octet is accepted (R32, R166). -/
def State.noteAccepted (s : State) : State := { s with ws := true }

/-- The tests of `DES.END` in their order (R172, R242): empty input, nothing accepted, a bit count off a nibble, an odd
number of nibbles. -/
def State.streamError (s : State) : Option ErrorKind :=
  if s.any = false then some .emptyFile
  else if s.ws = false then some .invalidFormat
  else if s.bcnt.toNat % 4 ≠ 0 then some .invalidFormat
  else if s.bcnt = 4 then some .hexError
  else none

/-- The tests of `CRC.VFY` in their order (R128, R242): the slice's length, then the comparison of all 32 bits. -/
def State.verifyError (s : State) : Option ErrorKind :=
  if s.expn ≠ 4 then some .sliceError
  else if checksum sbx s.crc ≠ s.exp then some .integrityError
  else none

/-- What a `DES.SYM` reports once its bit is packed (R166, R168): a high nibble at `bcnt = 4`, a byte at the wrap. -/
def State.packReport (s : State) : Rsp :=
  if s.bcnt = 4 then .nibh (s.sh.extractLsb' 0 4)
  else if s.bcnt = 0 then .byte s.sh
  else .ack

end Sys2Proof.Machine
end

