-- ==== Sys2Proof/Machine/Crc.lean ====
section
/-! DEFINITION. The commands of the CRC unit (40_crc.md section 3). None touches a codec register (R62). -/

namespace Sys2Proof.Machine

/-- `CRC.INIT` (R115): start a CRC session. -/
def execCrcInit (s : State) : Host.Outcome State Fault Refusal :=
  .next (s.unlessFaulted (s.startCrc.respond .ack))

/-- `CRC.BYTE b` (R116): consume one message byte. -/
def execCrcByte (b : Byte) (s : State) : Host.Outcome State Fault Refusal :=
  .next (s.unlessFaulted ((s.setCrc (upd8 sbx s.crc b)).respond .ack))

/-- `CRC.NIB n` (R118): consume four message bits. -/
def execCrcNib (n : Nibble) (s : State) : Host.Outcome State Fault Refusal :=
  .next (s.unlessFaulted ((s.setCrc (upd4 sbx s.crc n)).respond .ack))

/-- `CRC.RD k` (R120): byte `k` of the checksum of the bits consumed so far; no register is written. -/
def execCrcRd (k : BitVec 2) (s : State) : Host.Outcome State Fault Refusal :=
  .next (s.unlessFaulted (s.respond (.byte (checksumByte (checksum sbx s.crc) k))))

/-- `EXP.BYTE b` (R124): load the next byte of the received checksum; a fifth one is `SliceError`. -/
def execExpByte (b : Byte) (s : State) : Host.Outcome State Fault Refusal :=
  .next (s.unlessFaulted (if s.expn = 4 then s.raise .sliceError else (s.loadExp b).respond .ack))

/-- `CRC.VFY` (R128): compare the recomputed checksum with the received one; a pass changes no register. -/
def execCrcVfy (s : State) : Host.Outcome State Fault Refusal :=
  .next (s.unlessFaulted (match s.verifyError with
    | some e => s.raise e
    | none => s.respond .pass))

end Sys2Proof.Machine
end

