-- ==== Sys2Proof/Machine/Deserializer.lean ====
section
/-! DEFINITION. The deserializer, or bit packer (42_deserializer.md). None of its commands touches a CRC register
(R62). -/

namespace Sys2Proof.Machine

/-- `DES.INIT` (R164): start a deserializer session. -/
def execDesInit (s : State) : Host.Outcome State Fault Refusal :=
  .next (s.unlessFaulted (s.clearCodec.respond .ack))

/-- An accepted octet's effect (R166): both flags, the packed bit, and the report. -/
def State.accept (s : State) (d : BitVec 1) : State :=
  let t := (s.noteOctet.noteAccepted).packBit d
  t.respond t.packReport

/-- `DES.SYM c` (R166): an accepted octet packs its bit; a dropped one only sets `any` (R160). -/
def execDesSym (c : Byte) (s : State) : Host.Outcome State Fault Refusal :=
  .next (s.unlessFaulted (if accepted sbx c then s.accept (symbolBit sbx c) else s.noteOctet.respond .ack))

/-- `DES.END` (R172): the stream has ended; a fault keeps the codec registers, a pass clears them. -/
def execDesEnd (s : State) : Host.Outcome State Fault Refusal :=
  .next (s.unlessFaulted (match s.streamError with
    | some e => s.raise e
    | none => s.clearCodec.respond .pass))

end Sys2Proof.Machine
end

