-- ==== Sys2Proof/Machine/Serializer.lean ====
section
/-! DEFINITION. The serializer (41_serializer.md): one command and no state. -/

namespace Sys2Proof.Machine

/-- `SER.NIB n` (R140): the four symbols of the nibble; no register is read (but `err`) or written. -/
def execSerNib (n : Nibble) (s : State) : Host.Outcome State Fault Refusal :=
  .next (s.unlessFaulted (s.respond (.sym4 (sym4 sbx n))))

end Sys2Proof.Machine
end

