-- ==== Sys2Proof/Machine/System.lean ====
section
/-! DEFINITION. The system commands (43_system.md section 1). -/

namespace Sys2Proof.Machine

/-- `NOP` (R190): respond, and nothing else. -/
def execNop (s : State) : Host.Outcome State Fault Refusal :=
  .next (s.unlessFaulted (s.respond .ack))

/-- `RST` (R192): every register at its reset value, whatever `err` holds (R240). -/
def execRst (s : State) : Host.Outcome State Fault Refusal :=
  .next (s.clearAll.respond .ack)

end Sys2Proof.Machine
end

