-- ==== Sys2Proof/Machine/Dispatch.lean ====
section
/-! DEFINITION. One arm per command: each calls that command's own meaning. -/

namespace Sys2Proof.Machine

def exec (i : Instr) (s : State) : Host.Outcome State Fault Refusal :=
  match i with
  | .nop => Sys2Proof.Machine.execNop s
  | .crcInit => Sys2Proof.Machine.execCrcInit s
  | .crcByte b => Sys2Proof.Machine.execCrcByte b s
  | .crcNib n => Sys2Proof.Machine.execCrcNib n s
  | .crcRd k => Sys2Proof.Machine.execCrcRd k s
  | .expByte b => Sys2Proof.Machine.execExpByte b s
  | .crcVfy => Sys2Proof.Machine.execCrcVfy s
  | .serNib n => Sys2Proof.Machine.execSerNib n s
  | .desInit => Sys2Proof.Machine.execDesInit s
  | .desSym c => Sys2Proof.Machine.execDesSym c s
  | .desEnd => Sys2Proof.Machine.execDesEnd s
  | .rst => Sys2Proof.Machine.execRst s

end Sys2Proof.Machine
end

