-- ==== Sys2Proof/Machine/Clock.lean ====
section
/-! DEFINITION. One clock edge (R40, R240): what the input ports make of it. -/

namespace Sys2Proof.Machine

/-- A command word presented at a clock (R40, R240): the command it decodes to is executed, an illegal word raises
`IllegalCommand`. The fault state's part of R240 stands in the meanings (`State.unlessFaulted`). -/
def execWord (w : CmdWord) (s : State) : Host.Outcome State Fault Refusal :=
  match decode w with
  | .ok i => exec i s
  | .error _ => .next s.illegalWord

/-- One rising edge of `clk` with the ports at `c` (R40, R242, R270): reset overrides everything, a valid command is a
step, any other clock is none. -/
def clockEdge (c : ClockIn) (s : State) : Host.Outcome State Fault Refusal :=
  if c.rst then .next s.resetClock
  else if c.cmdValid then execWord c.cmd s
  else .next s.idleClock

/-- The ports as a command word being presented (R40). -/
def ClockIn.command (w : CmdWord) : ClockIn := ⟨false, true, w⟩

/-- The host presents a command word at the next clock. -/
def State.present (s : State) (w : CmdWord) : State := { s with inputs := .command w :: s.inputs }

end Sys2Proof.Machine
end

