-- ==== Sys2Proof/Machine/Step.lean ====
section
/-! DEFINITION. One step of the model: one rising edge of `clk`, with the ports at what the host puts on them next. -/

namespace Sys2Proof.Machine

/-- One rising edge of `clk` (R40). The next clock's input is taken off `inputs` and is not kept (R61); once the host has
nothing more to present, every clock is one with `cmd_valid = 0` (log 1). The step of R11 is this function at a clock
that presents a command, its response in `rsp`. -/
def step (s : State) : Host.Outcome State Fault Refusal :=
  match s.inputs with
  | [] => .next s.idleClock
  | c :: rest => clockEdge c { s with inputs := rest }

/-- The instruction of the opcode table given as the number `w` of `nbits` bits, presented by the host at the next
clock: SBX fetches nothing (R30), it executes the word on its command port (log 8). -/
def State.withFetchWord (s : State) (nbits w : Nat) : State := s.present (BitVec.ofNat 12 (w % 2 ^ nbits))

end Sys2Proof.Machine
end

