-- ==== Sys2Proof/Machine/Assembler.lean ====
section
/-! DEFINITION. The textual form of commands (R81): a line of characters to a line read, and a line read to a command or
an error. -/

namespace Sys2Proof.Machine

/-- Why a line of text is no command (R81). -/
inductive AsmError where
  /-- The first word is no mnemonic of R72. -/
  | unknownMnemonic
  /-- The operand is no unsigned number, hexadecimal with the prefix `0x` or decimal without. -/
  | badNumber
  /-- A mnemonic with an operand stands alone, or one without is given one. -/
  | operandCount
  /-- The number does not fit the field: "an assembler error, never truncated". -/
  | operandTooLarge
  deriving DecidableEq, Repr

/-- The mnemonics as written, "in capitals with the dot" (R81). -/
def mnemonicText : Mnemonic → List Char
  | .nop => ['N', 'O', 'P']
  | .crcInit => ['C', 'R', 'C', '.', 'I', 'N', 'I', 'T']
  | .crcByte => ['C', 'R', 'C', '.', 'B', 'Y', 'T', 'E']
  | .crcNib => ['C', 'R', 'C', '.', 'N', 'I', 'B']
  | .crcRd => ['C', 'R', 'C', '.', 'R', 'D']
  | .expByte => ['E', 'X', 'P', '.', 'B', 'Y', 'T', 'E']
  | .crcVfy => ['C', 'R', 'C', '.', 'V', 'F', 'Y']
  | .serNib => ['S', 'E', 'R', '.', 'N', 'I', 'B']
  | .desInit => ['D', 'E', 'S', '.', 'I', 'N', 'I', 'T']
  | .desSym => ['D', 'E', 'S', '.', 'S', 'Y', 'M']
  | .desEnd => ['D', 'E', 'S', '.', 'E', 'N', 'D']
  | .rst => ['R', 'S', 'T']

/-- The mnemonic a word of the text spells. -/
def readMnemonic (cs : List Char) : Option Mnemonic :=
  [Mnemonic.nop, .crcInit, .crcByte, .crcNib, .crcRd, .expByte, .crcVfy, .serNib, .desInit, .desSym, .desEnd, .rst].find?
    fun m => mnemonicText m = cs

/-- The value of a digit in a base up to 16, letters in either case (DESIGN CHOICE, log 14). -/
def readDigit (base : Nat) (ch : Char) : Option Nat :=
  let n := ch.toNat
  let v := if 48 ≤ n ∧ n ≤ 57 then n - 48
    else if 65 ≤ n ∧ n ≤ 70 then n - 55
    else if 97 ≤ n ∧ n ≤ 102 then n - 87
    else 16
  if v < base then some v else none

/-- The number a string of digits spells, none where it has no digit or a character that is none. -/
def readDigits (base : Nat) (cs : List Char) : Option Nat :=
  if cs = [] then none
  else (cs.mapM (readDigit base)).map fun ds => ds.foldl (fun n d => base * n + d) 0

/-- An unsigned number, "hexadecimal with the prefix 0x or decimal without" (R81). -/
def readNumber : List Char → Option Nat
  | '0' :: 'x' :: ds => readDigits 16 ds
  | ds => readDigits 10 ds

/-- A line's text without its comment, "from ; to the end of the line", and without the spaces before it (DEDUCED from the
programs of 95_test_vectors.md section 3; log 14). Spaces at the end of a line that has no comment, which R81's line has
not, are dropped too and the line is taken (DESIGN CHOICE, safe: log 14). -/
def stripComment (cs : List Char) : List Char :=
  ((cs.takeWhile (· ≠ ';')).reverse.dropWhile (· = ' ')).reverse

/-- A line of text, read: no command for an empty line, else a mnemonic of R72 and, after one space, an operand (R81). The
name of a pseudo-command (R82) is no such mnemonic, and a line that begins with one is `unknownMnemonic`, although the
programs of 95_test_vectors.md section 3 write such lines (DESIGN CHOICE, safe: log 26): its expansion is had from
Machine/Pseudo.lean. -/
def readLine (cs : List Char) : Except AsmError (Option AsmLine) :=
  let text := stripComment cs
  if text = [] then .ok none
  else
    match readMnemonic (text.takeWhile (· ≠ ' ')), text.dropWhile (· ≠ ' ') with
    | none, _ => .error .unknownMnemonic
    | some m, [] => .ok (some ⟨m, none⟩)
    | some m, _ :: operand =>
      match readNumber operand with
      | none => .error .badNumber
      | some n => .ok (some ⟨m, some n⟩)

/-- The command of a mnemonic and an operand that fits it. -/
def buildInstr (m : Mnemonic) (n : Nat) : Instr :=
  match m with
  | .nop => .nop
  | .crcInit => .crcInit
  | .crcByte => .crcByte (BitVec.ofNat 8 n)
  | .crcNib => .crcNib (BitVec.ofNat 4 n)
  | .crcRd => .crcRd (BitVec.ofNat 2 n)
  | .expByte => .expByte (BitVec.ofNat 8 n)
  | .crcVfy => .crcVfy
  | .serNib => .serNib (BitVec.ofNat 4 n)
  | .desInit => .desInit
  | .desSym => .desSym (BitVec.ofNat 8 n)
  | .desEnd => .desEnd
  | .rst => .rst

/-- The command of a line read, where the line is well-formed (R81). -/
def assemble (l : AsmLine) : Except AsmError Instr :=
  if l.mnemonic.operandBits.isSome ≠ l.operand.isSome then .error .operandCount
  else if l.wellFormed then .ok (buildInstr l.mnemonic (l.operand.getD 0))
  else .error .operandTooLarge

/-- The word of a line of text, none for a line without a command. -/
def assembleText (cs : List Char) : Except AsmError (Option CmdWord) :=
  match readLine cs with
  | .error e => .error e
  | .ok none => .ok none
  | .ok (some l) =>
    match assemble l with
    | .error e => .error e
    | .ok i => .ok (some (encode i))

end Sys2Proof.Machine
end

