-- ==== Sys2Proof/Machine/Pseudo.lean ====
section
/-! DEFINITION. The pseudo-commands (R82), each the sequence of commands it expands to. -/

namespace Sys2Proof.Machine

/-- `SER.BYTE b`: high nibble first (R53, R144). -/
def serByte (b : Byte) : List Instr := [.serNib (hiNibble b), .serNib (loNibble b)]

/-- `CRC.BYTEN b`: low nibble first (R111). -/
def crcByteN (b : Byte) : List Instr := [.crcNib (loNibble b), .crcNib (hiNibble b)]

/-- `CRC.BYTES b0, ..., bm`. -/
def crcBytes (bs : List Byte) : List Instr := bs.map .crcByte

/-- `CRC.SUM`: the checksum as four bytes, big-endian. -/
def crcSum : List Instr := [.crcRd 0, .crcRd 1, .crcRd 2, .crcRd 3]

/-- `EXP.WORD w`: most-significant byte first. -/
def expWord (w : CrcWord) : List Instr := (checksumBytes w).map .expByte

/-- An octet of the text of `DES.STR`: `S` is a space, `T` a tab, any other character its own ASCII code. A character
outside ASCII has none, and the text then stands for nothing (DESIGN CHOICE, safe: log 15). -/
def desStrOctet (ch : Char) : Option Byte :=
  if ch = 'S' then some 0x20
  else if ch = 'T' then some 0x09
  else if ch.toNat < 128 then some (BitVec.ofNat 8 ch.toNat)
  else none

/-- `DES.STR "text"`: one `DES.SYM` for each octet of the text, in order. -/
def desStr (text : List Char) : Option (List Instr) := (text.mapM desStrOctet).map fun os => os.map .desSym

/-- The commands that serialize a byte string, byte by byte (R56, R205). -/
def serBytes (bs : List Byte) : List Instr := bs.flatMap serByte

end Sys2Proof.Machine
end

