-- ==== Sys2Proof/Machine/Session.lean ====
section
/-! DEFINITION. Runs of several commands: the host presents words one after another (R11, R60) and collects their
responses. These are the terms in which the session laws of the spec are stated (R131, R146, R176). -/

namespace Sys2Proof.Machine

/-- The words presented one at each clock, in order: the state after the last, and the responses in order. None where a
step stops, which no step does. -/
def runWords : List CmdWord → State → Option (State × List Rsp)
  | [], s => some (s, [])
  | w :: ws, s =>
    match step (s.present w) with
    | .next t => (runWords ws t).map fun r => (r.1, t.rsp.toList ++ r.2)
    | _ => none

/-- The commands' words presented in order. -/
def runCmds (cs : List Instr) (s : State) : Option (State × List Rsp) := runWords (cs.map encode) s

/-- The data of the `BYTE` responses, in order (R168, R211). -/
def bytesOf (rs : List Rsp) : List Byte :=
  rs.filterMap fun r => match r with
    | .byte b => some b
    | _ => none

/-- The symbols of the `SYM4` responses in stream order: most-significant lane first (R76, R144). -/
def symbolsOf (rs : List Rsp) : List Byte :=
  rs.flatMap fun r => match r with
    | .sym4 d => checksumBytes d
    | _ => []

/-- The first error among the responses. -/
def firstError (rs : List Rsp) : Option ErrCode :=
  rs.findSome? fun r => match r with
    | .err e => some e
    | _ => none

end Sys2Proof.Machine
end

