-- ==== Sys2Proof/Machine/Frame.lean ====
section
/-! DEFINITION. The frame protocol (45_frame_protocol.md): the host's side, which R4 puts outside the hardware. No
instruction's meaning uses it; it is the client around the step in which the transform's own properties (R217) are
stated. Left out of it, by R4 and R5: how a salt is obtained and the reading of the bytes as UTF-8 text (log 17). -/

namespace Sys2Proof.Machine

/-- What a part of the host's transform ends in: a value, an error kind (R230), or a case the source gives no meaning. -/
inductive HostResult (α : Type) where
  | ok (a : α)
  | failed (e : ErrorKind)
  /-- No outcome is defined: a frame of 13 to 19 bytes with a matching checksum (R213, U4; log 18), or an error code that
  no error kind has (log 25). -/
  | unspecified
  deriving DecidableEq, Repr

/-- The next part of the transform, on the machine that the part before left; the first failure is final (R215: "All
errors are terminal"). -/
def hostBind {α β : Type} (r : State × HostResult α) (f : State → α → State × HostResult β) : State × HostResult β :=
  match r with
  | (t, .ok a) => f t a
  | (t, .failed e) => (t, .failed e)
  | (t, .unspecified) => (t, .unspecified)

/-- What an `ERR` response means to the host: the error kind of its code (R230; log 25). -/
def hostError {α : Type} (e : ErrCode) : HostResult α :=
  match ErrorKind.ofCode e with
  | some k => .failed k
  | none => .unspecified

/-- The host after an `ERR` response: it discards the session and issues `RST` (R215, the last duty; log 25). -/
def hostDiscard {α : Type} (t : State) (e : ErrCode) : State × HostResult α :=
  match step (t.present (encode .rst)) with
  | .next u => (u, hostError e)
  | _ => (t, .unspecified)

/-- The host issues commands in order and collects their responses. At the first `ERR` it discards them all and issues
`RST`; the commands after it are not issued (R215, R283; log 25). -/
def hostSession (cs : List Instr) (s : State) : State × HostResult (List Rsp) :=
  match cs with
  | [] => (s, .ok [])
  | c :: rest =>
    match step (s.present (encode c)) with
    | .next t =>
      match t.rsp with
      | some (.err e) => hostDiscard t e
      | r => hostBind (hostSession rest t) fun u rs => (u, .ok (r.toList ++ rs))
    | _ => (s, .unspecified)

/-- The key extender (R202): byte `i` is `key[i mod K]`. It "fails if key is empty": the extended key of an empty key,
which R215 calls undefined, is none and no value (DESIGN CHOICE, safe: log 24). -/
def extendKey (key : List Byte) (n : Nat) : Option (List Byte) :=
  match key with
  | [] => none
  | k :: ks => some ((List.range n).map fun i => (k :: ks)[i % (ks.length + 1)]'(Nat.mod_lt i (Nat.succ_pos _)))

/-- The cipher (R203): the XOR with the extended key, its own inverse; none for an empty key (log 24). -/
def cipher (key data : List Byte) : Option (List Byte) :=
  (extendKey key data.length).map fun ext => List.zipWith (· ^^^ ·) data ext

/-- The encrypted payload (R201, R203): plaintext then salt, enciphered; none for an empty key (log 24). -/
def encryptedPayload (key salt plain : List Byte) : Option (List Byte) := cipher key (plain ++ salt)

/-- The first commands of the encoder (R205): the checksum of the encrypted payload. -/
def checksumCmds (enc : List Byte) : List Instr := .crcInit :: (crcBytes enc ++ crcSum)

/-- The encoder (R205): the machine the host leaves, and the whitespace string. An empty key, which has no encrypted
payload, is rejected before the machine is used; the salt has 8 bytes by its type (R206, U5; log 18). -/
def hostEncrypt (key : List Byte) (salt : Vector Byte 8) (plain : List Byte) (s : State) :
    State × HostResult (List Byte) :=
  match encryptedPayload key salt.toList plain with
  | none => (s, .failed .invalidKey)
  | some enc =>
    hostBind (hostSession (checksumCmds enc) s) fun t rs =>
      hostBind (hostSession (serBytes (enc ++ bytesOf rs ++ salt.toList)) t) fun u rs' => (u, .ok (symbolsOf rs'))

/-- The decoder's first commands (R211): the received text, then the end of the stream. -/
def deserializeCmds (text : List Byte) : List Instr := .desInit :: (text.map .desSym ++ [.desEnd])

/-- The decoder's second commands (R210, R211): the payload's checksum, the four received bytes, the comparison. -/
def verifyCmds (d : List Byte) : List Instr :=
  .crcInit :: (crcBytes (d.take (d.length - 12)) ++ ((d.drop (d.length - 12)).take 4).map .expByte ++ [.crcVfy])

/-- The decoder's end (R212, R213): decipher the payload and strip the salt off it, once there are 8 bytes to strip. -/
def recover (key d : List Byte) : HostResult (List Byte) :=
  if d.length < 20 then .unspecified
  else
    match cipher key (d.take (d.length - 12)) with
    | none => .failed .invalidKey
    | some payload => .ok (payload.take (d.length - 20))

/-- The decoder (R210 to R213): the machine the host leaves, and the plaintext bytes. An empty key is rejected first
(log 16); no byte is released before `DES.END` and `CRC.VFY` have both passed (R283). -/
def hostDecrypt (key text : List Byte) (s : State) : State × HostResult (List Byte) :=
  if key = [] then (s, .failed .invalidKey)
  else
    hostBind (hostSession (deserializeCmds text) s) fun t rs =>
      let d := bytesOf rs
      if d.length ≤ sbx.cksumLen + sbx.saltLen then (t, .failed .invalidFormat)
      else hostBind (hostSession (verifyCmds d) t) fun u _ => (u, recover key d)

/-- The other symbol: a space for a tab and a tab for a space; any other octet as it is. -/
def otherSymbol (cfg : Config) (c : Byte) : Byte :=
  if c = cfg.sym0 then cfg.sym1 else if c = cfg.sym1 then cfg.sym0 else c

/-- A received text tampered with (R217, R113): the symbol at a place exchanged for the other one, which in the whitespace
form flips one bit. -/
def flipSymbol (text : List Byte) (k : Nat) : List Byte := text.modify k (otherSymbol sbx)

end Sys2Proof.Machine
end

