-- ==== Sys2Proof/Safety.lean ====
section
/-! DEFINITION. The terms of the claims: which registers belong to a unit, what an illegal word does, the invariant that
every step keeps, and reachable states. A run is fault-free while `err = 0`, the premise R240 asks of a claim about a
session. -/

namespace Sys2Proof

/-- The command belongs to the CRC unit (R15, R62). -/
def Instr.isCrc : Instr → Bool
  | .nop => false
  | .crcInit => true
  | .crcByte _ => true
  | .crcNib _ => true
  | .crcRd _ => true
  | .expByte _ => true
  | .crcVfy => true
  | .serNib _ => false
  | .desInit => false
  | .desSym _ => false
  | .desEnd => false
  | .rst => false

/-- The command belongs to the codec unit (R15, R62). -/
def Instr.isCodec : Instr → Bool
  | .nop => false
  | .crcInit => false
  | .crcByte _ => false
  | .crcNib _ => false
  | .crcRd _ => false
  | .expByte _ => false
  | .crcVfy => false
  | .serNib _ => true
  | .desInit => true
  | .desSym _ => true
  | .desEnd => true
  | .rst => false

end Sys2Proof

namespace Sys2Proof.Machine

/-- The registers of the CRC unit are the same (R62). -/
def SameCrc (s t : State) : Prop := t.crc = s.crc ∧ t.exp = s.exp ∧ t.expn = s.expn

/-- The registers of the codec unit are the same (R62). -/
def SameCodec (s t : State) : Prop := t.sh = s.sh ∧ t.bcnt = s.bcnt ∧ t.any = s.any ∧ t.ws = s.ws

/-- All eight registers are the same (R20). -/
def SameRegs (s t : State) : Prop := SameCrc s t ∧ SameCodec s t ∧ t.err = s.err

/-- Presented to a fault-free machine, the word raises `IllegalCommand` and does nothing else (R79). -/
def RaisesIllegal (w : CmdWord) : Prop :=
  ∀ s : State, s.err = 0 → step (s.present w) = .next { s with err := 0xF, rsp := some (.err 0xF) }

/-- The codes that SBX can hold in `err` (R230, U6): none, and the six it raises. -/
def raisableCodes : List ErrCode := [0, 2, 4, 5, 7, 8, 15]

/-- The invariant of the reachable states, from the spec's own words: `expn` never passes 4 (R22, R130); `exp` holds the
bytes loaded and nothing else (R22, R124); an accepted symbol was a presented octet (R31, R32); a codec that accepted
nothing holds no bits (R164, R166, R172); `err` holds a code that SBX raises (R230, U6); and an `ERR` response carries
the code in `err`, which is not 0 (R75, R236, R240). -/
structure Inv (s : State) : Prop where
  expn_le : s.expn.toNat ≤ 4
  exp_lt : s.exp.toNat < 256 ^ s.expn.toNat
  ws_any : s.ws = true → s.any = true
  unaccepted : s.ws = false → s.sh = 0 ∧ s.bcnt = 0
  err_code : s.err ∈ raisableCodes
  rsp_err : ∀ e, s.rsp = some (.err e) → e = s.err ∧ s.err ≠ 0

/-- States that steps lead to from the state right after reset, whatever the host puts on the ports. -/
inductive Reachable : State → Prop where
  | reset (inputs : List ClockIn) : Reachable { State.reset with inputs := inputs }
  | step {s t : State} (hs : Reachable s) (h : step s = .next t) : Reachable t

end Sys2Proof.Machine
end

