-- ==== Sys2Proof/Certificates/Slice0/Obligations.lean ====
section
/-! DEFINITION. The statements for the provers, in the order of the spec's files. Every statement about an octet or a
checksum VALUE rests on decision D1 or D2 (logs 5 and 6: the spec's choice from general knowledge). -/

open Sys2Proof Sys2Proof.Machine

/-! ### Encoding (30_encoding.md) -/

/-- R71: the sub-fields of `arg`, by operation: `op` is bits 11 to 8 of the word, `arg` bits 7 to 0. An operation with
must-be-zero bits decodes where they are zero and is refused where one is not. -/
def Obligations.OperandFields : Prop :=
  (∀ a : Byte,
    decode (0x2#4 ++ a) = .ok (.crcByte a) ∧ decode (0x5#4 ++ a) = .ok (.expByte a) ∧
    decode (0x9#4 ++ a) = .ok (.desSym a)) ∧
  (∀ z n : BitVec 4,
    (z = 0 → decode (0x3#4 ++ z ++ n) = .ok (.crcNib n) ∧ decode (0x7#4 ++ z ++ n) = .ok (.serNib n)) ∧
    (z ≠ 0 → (∃ e, decode (0x3#4 ++ z ++ n) = .error e) ∧ ∃ e, decode (0x7#4 ++ z ++ n) = .error e)) ∧
  (∀ (z : BitVec 6) (k : BitVec 2),
    (z = 0 → decode (0x4#4 ++ z ++ k) = .ok (.crcRd k)) ∧ (z ≠ 0 → ∃ e, decode (0x4#4 ++ z ++ k) = .error e)) ∧
  (∀ a : Byte,
    (a = 0 → decode (0x0#4 ++ a) = .ok .nop ∧ decode (0x1#4 ++ a) = .ok .crcInit ∧
      decode (0x6#4 ++ a) = .ok .crcVfy ∧ decode (0x8#4 ++ a) = .ok .desInit ∧
      decode (0xA#4 ++ a) = .ok .desEnd ∧ decode (0xF#4 ++ a) = .ok .rst) ∧
    (a ≠ 0 → (∃ e, decode (0x0#4 ++ a) = .error e) ∧ (∃ e, decode (0x1#4 ++ a) = .error e) ∧
      (∃ e, decode (0x6#4 ++ a) = .error e) ∧ (∃ e, decode (0x8#4 ++ a) = .error e) ∧
      (∃ e, decode (0xA#4 ++ a) = .error e) ∧ ∃ e, decode (0xF#4 ++ a) = .error e))

/-- R72: a word is the command of a row exactly when `w & mask = match`, the rows are disjoint, and a word that matches
no row is illegal. The counts that the rule derives from its table stand in `LegalWordCount`. -/
def Obligations.OpcodeMap : Prop :=
  (∀ w : CmdWord,
    (w &&& 0xFFF = 0x000 ↔ decode w = .ok .nop) ∧
    (w &&& 0xFFF = 0x100 ↔ decode w = .ok .crcInit) ∧
    (w &&& 0xF00 = 0x200 ↔ ∃ b, decode w = .ok (.crcByte b)) ∧
    (w &&& 0xFF0 = 0x300 ↔ ∃ n, decode w = .ok (.crcNib n)) ∧
    (w &&& 0xFFC = 0x400 ↔ ∃ k, decode w = .ok (.crcRd k)) ∧
    (w &&& 0xF00 = 0x500 ↔ ∃ b, decode w = .ok (.expByte b)) ∧
    (w &&& 0xFFF = 0x600 ↔ decode w = .ok .crcVfy) ∧
    (w &&& 0xFF0 = 0x700 ↔ ∃ n, decode w = .ok (.serNib n)) ∧
    (w &&& 0xFFF = 0x800 ↔ decode w = .ok .desInit) ∧
    (w &&& 0xF00 = 0x900 ↔ ∃ c, decode w = .ok (.desSym c)) ∧
    (w &&& 0xFFF = 0xA00 ↔ decode w = .ok .desEnd) ∧
    (w &&& 0xFFF = 0xF00 ↔ decode w = .ok .rst)) ∧
  let rows : List (CmdWord × CmdWord) :=
    [(0x000, 0xFFF), (0x100, 0xFFF), (0x200, 0xF00), (0x300, 0xFF0), (0x400, 0xFFC), (0x500, 0xF00), (0x600, 0xFFF),
      (0x700, 0xFF0), (0x800, 0xFFF), (0x900, 0xF00), (0xA00, 0xFFF), (0xF00, 0xFFF)]
  (∀ w : CmdWord, ((∀ row ∈ rows, w &&& row.2 ≠ row.1) ↔ ∃ e, decode w = .error e)) ∧
  rows.Pairwise fun r q => ∀ w : CmdWord, ¬(w &&& r.2 = r.1 ∧ w &&& q.2 = q.1)

/-- 810 command words are legal and the other 3286 are not (30_encoding.md section 2: the spec's derivation from its
masks). -/
def Obligations.LegalWordCount : Prop :=
  ((List.range 4096).filter fun n => (decode (BitVec.ofNat 12 n)).toBool).length = 810 ∧
  ((List.range 4096).filter fun n => !(decode (BitVec.ofNat 12 n)).toBool).length = 3286

/-- Decode and encode agree, both ways: the decoder reads back every command from its word, and a word that decodes is
the one word of its command. The model's own check of R72's "each command has one bit pattern". -/
def Obligations.DecodeEncodeAgree : Prop :=
  (∀ i : Instr, decode (encode i) = .ok i) ∧ ∀ (w : CmdWord) (i : Instr), decode w = .ok i → encode i = w

/-- Words written out from R72's patterns, and `CRC.BYTE 0x2A` is `0x22A` (R81). -/
def Obligations.SampleWords : Prop :=
  decode 0b000000000000 = .ok .nop ∧ decode 0b001000101010 = .ok (.crcByte 0x2A) ∧
  decode 0b001100001010 = .ok (.crcNib 0xA) ∧ decode 0b010000000011 = .ok (.crcRd 3) ∧
  decode 0b011100001111 = .ok (.serNib 0xF) ∧ decode 0b100100001001 = .ok (.desSym 0x09) ∧
  decode 0b101000000000 = .ok .desEnd ∧ decode 0b111100000000 = .ok .rst ∧
  decode 0b111100000001 = .error (.mustBeZero 0xF 0x01) ∧ decode 0b101100000000 = .error (.reservedOp 0xB)

/-- R79: which words are illegal, that one raises `IllegalCommand` and changes nothing else where `err = 0`, and that it
is answered `ERR(err)` without a change where `err != 0`. -/
def Obligations.IllegalWords : Prop :=
  ∀ w : CmdWord,
    let op := w.extractLsb' 8 4
    let arg := w.extractLsb' 0 8
    let illegal := op ∈ [0xB#4, 0xC#4, 0xD#4, 0xE#4] ∨ (op ∈ [0x0#4, 0x1#4, 0x6#4, 0x8#4, 0xA#4, 0xF#4] ∧ arg ≠ 0) ∨
      (op ∈ [0x3#4, 0x7#4] ∧ arg.extractLsb' 4 4 ≠ 0) ∨ (op = 0x4#4 ∧ arg.extractLsb' 2 6 ≠ 0)
    (illegal ↔ ∃ e, decode w = .error e) ∧
    (illegal → ∀ s : State,
      (s.err = 0 → step (s.present w) = .next { s with err := 0xF, rsp := some (.err 0xF) }) ∧
      (s.err ≠ 0 → step (s.present w) = .next { s with rsp := some (.err s.err) }))

/-- 30_encoding.md section 3: the kind and the data of each response; narrow values zero-extended. -/
def Obligations.ResponseCodes : Prop :=
  (Rsp.kind .ack = 0 ∧ Rsp.data .ack = 0) ∧ (Rsp.kind .pass = 1 ∧ Rsp.data .pass = 0) ∧
  (∀ n, Rsp.kind (.nibh n) = 2 ∧ Rsp.data (.nibh n) = 0#28 ++ n) ∧
  (∀ b, Rsp.kind (.byte b) = 3 ∧ Rsp.data (.byte b) = 0#24 ++ b) ∧
  (∀ d, Rsp.kind (.sym4 d) = 4 ∧ Rsp.data (.sym4 d) = d) ∧
  (∀ e, Rsp.kind (.err e) = 7 ∧ Rsp.data (.err e) = 0#28 ++ e)

/-- A line of the assembler is a command exactly when it is that command's own line, so no operand is ever truncated
(30_encoding.md section 6: "never truncated"). -/
def Obligations.AssemblerExact : Prop :=
  ∀ (l : AsmLine) (i : Instr), assemble l = .ok i ↔ l = i.line

/-- R82: the expansions of the pseudo-commands; and a sequence of commands, as an expansion is, gives the responses of its
commands in order: the first command's response, then those of the rest. A character of `DES.STR` beyond ASCII is the model's choice (log 15) and
is left out here. -/
def Obligations.PseudoCommands : Prop :=
  (∀ b : Byte, serByte b = [.serNib (b.extractLsb' 4 4), .serNib (b.extractLsb' 0 4)]) ∧
  (∀ b : Byte, crcByteN b = [.crcNib (b.extractLsb' 0 4), .crcNib (b.extractLsb' 4 4)]) ∧
  (∀ bs : List Byte, crcBytes bs = bs.map .crcByte) ∧
  crcSum = [.crcRd 0, .crcRd 1, .crcRd 2, .crcRd 3] ∧
  (∀ w : CrcWord, expWord w = [.expByte (w.extractLsb' 24 8), .expByte (w.extractLsb' 16 8),
    .expByte (w.extractLsb' 8 8), .expByte (w.extractLsb' 0 8)]) ∧
  (∀ text : List Char, (∀ ch ∈ text, ch.toNat < 128) →
    desStr text = some (text.map fun ch =>
      .desSym (if ch = 'S' then 0x20 else if ch = 'T' then 0x09 else BitVec.ofNat 8 ch.toNat))) ∧
  ∀ (c : Instr) (rest : List Instr) (s t : State), exec c s = .next t →
    runCmds (c :: rest) s = (runCmds rest t).map fun r => (r.1, t.rsp.toList ++ r.2)

/-! ### The step and the ports (00_scope.md, 10_state.md, 60_exceptions.md) -/

/-- A step runs the decoded command: at a clock that presents a word which decodes, the step is that command's meaning
on the machine with the clock's input taken off. `inputs` is the model's own field (logs 1 and 2). -/
def Obligations.StepRunsDecoded : Prop :=
  ∀ (s : State) (w : CmdWord) (rest : List ClockIn) (i : Instr),
    s.inputs = ⟨false, true, w⟩ :: rest → decode w = .ok i → step s = exec i { s with inputs := rest }

/-- Every command word, legal or not, from every state, gives a state after it and exactly one response, of a kind that
is not reserved, and consumes that one clock of input (00_scope.md section 4; 30_encoding.md section 3). -/
def Obligations.OneResponsePerStep : Prop :=
  ∀ (s : State) (w : CmdWord), ∃ (t : State) (r : Rsp),
    step (s.present w) = .next t ∧ t.rsp = some r ∧ r.kind ∈ [0, 1, 2, 3, 4, 7] ∧ t.inputs = s.inputs

/-- R40: a clock with `rst = 1` gives the reset values whatever else the ports hold, one with `rst = 0` and
`cmd_valid = 1` executes `cmd`, one with `cmd_valid = 0` changes no register and gives no response. -/
def Obligations.ClockEdges : Prop :=
  ∀ (s : State) (c : ClockIn) (rest : List ClockIn), s.inputs = c :: rest →
    (c.rst = true → step s = .next { State.reset with inputs := rest }) ∧
    (c.rst = false → c.cmdValid = true →
      step s = (match decode c.cmd with
        | .ok i => exec i { s with inputs := rest }
        | .error _ => .next (State.illegalWord { s with inputs := rest }))) ∧
    (c.rst = false → c.cmdValid = false → step s = .next { s with rsp := none, inputs := rest })

/-- R270: a clock with the port `rst` at 1, from any state and whatever the other ports hold, leaves every register at
its reset value with no response and no fault; and so are the outputs right after reset. -/
def Obligations.ResetPort : Prop :=
  (∀ (s : State) (c : ClockIn) (rest : List ClockIn), s.inputs = c :: rest → c.rst = true →
    ∃ t, step s = .next t ∧ t.crc = 0xFFFFFFFF ∧ t.exp = 0 ∧ t.expn = 0 ∧ t.sh = 0 ∧ t.bcnt = 0 ∧ t.any = false ∧
      t.ws = false ∧ t.err = 0 ∧ t.rspValid = false ∧ t.errO = 0 ∧ t.faultO = false ∧ t.inputs = rest) ∧
  State.reset.rspValid = false ∧ State.reset.errO = 0 ∧ State.reset.faultO = false

/-- R45: the state after reset and after `RST`, and that `CRC.INIT` followed by `DES.INIT` gives the same registers from
any state with `err = 0`. -/
def Obligations.ResetState : Prop :=
  (State.reset.crc = 0xFFFFFFFF ∧ State.reset.exp = 0 ∧ State.reset.expn = 0 ∧ State.reset.sh = 0 ∧
    State.reset.bcnt = 0 ∧ State.reset.any = false ∧ State.reset.ws = false ∧ State.reset.err = 0) ∧
  (∀ s : State, ∃ t, exec .rst s = .next t ∧ SameRegs State.reset t) ∧
  (∀ (s : State) (c : ClockIn) (rest : List ClockIn), s.inputs = c :: rest → c.rst = true →
    ∃ t, step s = .next t ∧ SameRegs State.reset t) ∧
  (∀ s : State, s.err = 0 → ∃ t u, exec .crcInit s = .next t ∧ exec .desInit t = .next u ∧ SameRegs State.reset u)

/-- R31: the flag `any`. It is set by every `DES.SYM`, cleared by `DES.INIT`, a passing `DES.END` and `RST`, written by
no other command, and read by `DES.END` only: any other command does the same whichever value it has. -/
def Obligations.AnyFlag : Prop :=
  (∀ (c : Byte) (s : State), s.err = 0 → ∃ t, exec (.desSym c) s = .next t ∧ t.any = true) ∧
  (∀ s : State, s.err = 0 → ∃ t, exec .desInit s = .next t ∧ t.any = false) ∧
  (∀ s t : State, exec .desEnd s = .next t → t.rsp = some .pass → t.any = false) ∧
  (∀ s : State, ∃ t, exec .rst s = .next t ∧ t.any = false) ∧
  (∀ (i : Instr) (s t : State), exec i s = .next t → t.any ≠ s.any →
    (∃ c, i = .desSym c) ∨ i = .desInit ∨ (i = .desEnd ∧ t.rsp = some .pass) ∨ i = .rst) ∧
  (∀ (i : Instr) (s t : State) (v : Bool), i ≠ .desEnd → exec i s = .next t →
    ∃ u, exec i { s with any := v } = .next u ∧ { u with any := t.any } = t) ∧
  ∀ s : State, s.err = 0 → s.any = false → exec .desEnd s = .next { s with err := 8, rsp := some (.err 8) }

/-- R32: the flag `ws`. It is set by a `DES.SYM` of a space or a tab, cleared by `DES.INIT`, a passing `DES.END` and
`RST`, and read by `DES.END` only; and it is not `bcnt != 0`: eight accepted symbols bring `bcnt` back to 0. -/
def Obligations.WsFlag : Prop :=
  (∀ (c : Byte) (s : State), s.err = 0 → c = 0x20 ∨ c = 0x09 → ∃ t, exec (.desSym c) s = .next t ∧ t.ws = true) ∧
  (∀ s : State, s.err = 0 → ∃ t, exec .desInit s = .next t ∧ t.ws = false) ∧
  (∀ s t : State, exec .desEnd s = .next t → t.rsp = some .pass → t.ws = false) ∧
  (∀ s : State, ∃ t, exec .rst s = .next t ∧ t.ws = false) ∧
  (∀ (i : Instr) (s t : State), exec i s = .next t → t.ws ≠ s.ws →
    i = .desSym 0x20 ∨ i = .desSym 0x09 ∨ i = .desInit ∨ (i = .desEnd ∧ t.rsp = some .pass) ∨ i = .rst) ∧
  (∀ (i : Instr) (s t : State) (v : Bool), i ≠ .desEnd → exec i s = .next t →
    ∃ u, exec i { s with ws := v } = .next u ∧ { u with ws := t.ws } = t) ∧
  (∀ s : State, s.err = 0 → s.any = true → s.ws = false →
    exec .desEnd s = .next { s with err := 4, rsp := some (.err 4) }) ∧
  ∀ (s : State) (text : List Byte), s.err = 0 → text.length = 8 → (∀ c ∈ text, c = 0x20 ∨ c = 0x09) →
    ∃ t rs, runCmds (text.map .desSym) s = some (t, rs) ∧ t.bcnt = s.bcnt ∧ t.ws = true

/-- The frame of the whole command set (10_state.md section 2): the commands outside a register's list of writers leave
it as it was, and no command touches what the host presents next. -/
def Obligations.RegisterWriters : Prop :=
  ∀ (i : Instr) (s t : State), exec i s = .next t →
    (t.crc ≠ s.crc → i = .crcInit ∨ (∃ b, i = .crcByte b) ∨ (∃ n, i = .crcNib n) ∨ i = .rst) ∧
    (t.exp ≠ s.exp ∨ t.expn ≠ s.expn → (∃ b, i = .expByte b) ∨ i = .crcInit ∨ i = .rst) ∧
    (t.sh ≠ s.sh ∨ t.bcnt ≠ s.bcnt → i = .desSym 0x20 ∨ i = .desSym 0x09 ∨ i = .desInit ∨
      (i = .desEnd ∧ t.rsp = some .pass) ∨ i = .rst) ∧
    (t.err ≠ s.err → (∃ b, i = .expByte b) ∨ i = .crcVfy ∨ i = .desEnd ∨ i = .rst) ∧
    t.inputs = s.inputs

/-- R35: the register `err`. A step changes it only by a fault entry from 0 or by a reset to 0; over a run of words
without `RST` from a fault-free machine it is the first error raised; an `ERR` response carries it, and so does the port
`err_o`. -/
def Obligations.ErrRegister : Prop :=
  (∀ s t : State, step s = .next t → t.err ≠ s.err →
    (s.err = 0 ∧ t.rsp = some (.err t.err)) ∨
      (t.err = 0 ∧ ∃ c rest, s.inputs = c :: rest ∧ (c.rst = true ∨ (c.cmdValid = true ∧ c.cmd = 0xF00)))) ∧
  (∀ (s t : State) (words : List CmdWord) (rs : List Rsp), s.err = 0 → (∀ w ∈ words, w ≠ 0xF00) →
    runWords words s = some (t, rs) → t.err = (firstError rs).getD 0) ∧
  ∀ (s t : State) (e : ErrCode), step s = .next t → t.errO = t.err ∧ (t.rsp = some (.err e) → e = t.err ∧ e ≠ 0)

/-- R240: the order of a step. -/
def Obligations.StepOrder : Prop :=
  ∀ (s : State) (w : CmdWord),
    (w = 0xF00 → step (s.present w) = .next { State.reset with rsp := some .ack, inputs := s.inputs }) ∧
    (w ≠ 0xF00 → s.err ≠ 0 → step (s.present w) = .next { s with rsp := some (.err s.err) }) ∧
    (w ≠ 0xF00 → s.err = 0 → ∀ e, decode w = .error e →
      step (s.present w) = .next { s with err := 0xF, rsp := some (.err 0xF) }) ∧
    (w ≠ 0xF00 → s.err = 0 → ∀ i, decode w = .ok i → step (s.present w) = exec i s)

/-- R242: at most one error a step, in a fixed order; over a run of words without `RST` the first error wins, and every
word after it is answered with it and changes nothing; the reset port overrides everything. -/
def Obligations.FirstErrorWins : Prop :=
  (∀ s : State, s.err = 0 → ∃ t, exec .desEnd s = .next t ∧ t.err =
    if s.any = false then 8 else if s.ws = false then 4 else if s.bcnt.toNat % 4 ≠ 0 then 4
    else if s.bcnt = 4 then 2 else 0) ∧
  (∀ s : State, s.err = 0 → ∃ t, exec .crcVfy s = .next t ∧ t.err =
    if s.expn ≠ 4 then 7 else if s.crc ^^^ 0xFFFFFFFF ≠ s.exp then 5 else 0) ∧
  (∀ (s t u : State) (w : CmdWord) (words : List CmdWord) (rs : List Rsp), (∀ v ∈ words, v ≠ 0xF00) →
    s.err = 0 → step (s.present w) = .next t → t.err ≠ 0 → runWords words t = some (u, rs) →
    SameRegs t u ∧ rs = List.replicate words.length (.err t.err)) ∧
  ∀ (s : State) (c : ClockIn) (rest : List ClockIn), s.inputs = c :: rest → c.rst = true →
    step s = .next { State.reset with inputs := rest }

/-- R236: a step that raises a fault began with `err = 0`, and does nothing but write `err` and respond `ERR`; then
`err_o` is the code and `fault_o` is 1. -/
def Obligations.FaultEntry : Prop :=
  ∀ (s t : State) (w : CmdWord), step (s.present w) = .next t → t.err ≠ s.err → t.err ≠ 0 →
    s.err = 0 ∧ t = { s with err := t.err, rsp := some (.err t.err) } ∧ t.errO = t.err ∧ t.faultO = true ∧
    t.rspKind = some 7 ∧ t.rspData = some (t.err.setWidth 32)

/-- R232: which command can raise what. -/
def Obligations.WhoRaisesWhat : Prop :=
  (∀ (i : Instr) (s t : State), s.err = 0 → exec i s = .next t → t.err ≠ 0 →
    match i with
    | .expByte _ => t.err = 7
    | .crcVfy => t.err = 7 ∨ t.err = 5
    | .desEnd => t.err = 8 ∨ t.err = 4 ∨ t.err = 2
    | _ => False) ∧
  (∀ (w : CmdWord) (e : DecodeError), decode w = .error e → RaisesIllegal w) ∧
  (∀ (w : CmdWord) (s t : State), s.err = 0 → step (s.present w) = .next t → t.err = 0xF →
    ∃ e, decode w = .error e)

/-- R244: in the fault state a clock that resets, by the port or by `RST`, puts every register at its reset value, and
no other clock changes a register, `err` included; after `RST` a new fault can be raised as from reset. -/
def Obligations.WayOutOfFault : Prop :=
  (∀ (s t : State) (c : ClockIn) (rest : List ClockIn),
    s.err ≠ 0 → s.inputs = c :: rest → step s = .next t →
      if c.rst = true ∨ (c.cmdValid = true ∧ c.cmd = 0xF00) then SameRegs State.reset t else SameRegs s t) ∧
  (∀ (s t : State) (w : CmdWord) (e : DecodeError), exec .rst s = .next t → decode w = .error e →
    ∃ u, step (t.present w) = .next u ∧ u.err = 0xF)

/-- The output `fault_o` (60_exceptions.md section 6): it is `err != 0`, a clock clears it only as a reset or `RST`, which
do, and after a command it says what the response's kind says. -/
def Obligations.FaultLine : Prop :=
  (∀ s : State, s.faultO = true ↔ s.err ≠ 0) ∧
  (∀ s t : State, s.faultO = true → step s = .next t →
    (t.faultO = false ↔
      ∃ c rest, s.inputs = c :: rest ∧ (c.rst = true ∨ (c.cmdValid = true ∧ c.cmd = 0xF00)))) ∧
  ∀ (s t : State) (w : CmdWord), step (s.present w) = .next t → (t.faultO = true ↔ t.rsp = some (.err t.err))

/-- R62: the two units are independent. No command of one writes a register of the other, and what a command does and
answers depends on the registers of its own unit and `err` alone; `SER.NIB` writes no register at all and its answer
depends on none but `err`; a fault raised by either unit stops both. -/
def Obligations.UnitsIndependent : Prop :=
  (∀ (i : Instr) (s t : State), i.isCrc = true → exec i s = .next t → SameCodec s t) ∧
  (∀ (i : Instr) (s t : State), i.isCodec = true → exec i s = .next t → SameCrc s t) ∧
  (∀ (n : Nibble) (s t : State), s.err = 0 → exec (.serNib n) s = .next t → SameRegs s t) ∧
  (∀ (i : Instr) (s s' t t' : State), i.isCrc = true → SameCrc s s' → s'.err = s.err → exec i s = .next t →
    exec i s' = .next t' → SameCrc t t' ∧ t'.err = t.err ∧ t'.rsp = t.rsp) ∧
  (∀ (i : Instr) (s s' t t' : State), i.isCodec = true → SameCodec s s' → s'.err = s.err → exec i s = .next t →
    exec i s' = .next t' → SameCodec t t' ∧ t'.err = t.err ∧ t'.rsp = t.rsp) ∧
  (∀ (n : Nibble) (s s' t t' : State), s'.err = s.err → exec (.serNib n) s = .next t →
    exec (.serNib n) s' = .next t' → t'.rsp = t.rsp) ∧
  (∀ (i : Instr) (s t : State), i ≠ .rst → s.err ≠ 0 → exec i s = .next t →
    SameRegs s t ∧ t.rsp = some (.err s.err))

/-- CRC commands and codec commands may be interleaved without interference (20_memory.md section 5): where neither
faults, the two orders leave the same registers and give the same answers. -/
def Obligations.InterleavingCommutes : Prop :=
  ∀ (i j : Instr) (s a b : State), i.isCrc = true → j.isCodec = true → s.err = 0 →
    exec i s = .next a → exec j s = .next b → a.err = 0 → b.err = 0 →
    ∃ c d, exec j a = .next c ∧ exec i b = .next d ∧ SameRegs c d ∧ c.rsp = b.rsp ∧ d.rsp = a.rsp

/-! ### Invariants -/

/-- Every step keeps the invariant `Inv`, from every state that has it. -/
def Obligations.StepKeepsInv : Prop :=
  ∀ s t : State, Inv s → step s = .next t → Inv t

/-- The state right after reset has the invariant, whatever the host presents next. -/
def Obligations.ResetHasInv : Prop :=
  Inv State.reset ∧ ∀ inputs : List ClockIn, Inv { State.reset with inputs := inputs }

/-- No reachable state holds an `expn` of 5, 6 or 7 or a reserved error code (10_state.md section 2: "never reached";
93_implementation_defined.md U6, U9). -/
def Obligations.ReachableRegisters : Prop :=
  ∀ s : State, Reachable s →
    s.expn ≠ 5 ∧ s.expn ≠ 6 ∧ s.expn ≠ 7 ∧ ∀ e : ErrCode, e ∈ [1, 3, 6, 9, 10, 11, 12, 13, 14] → s.err ≠ e

/-! ### The CRC unit (40_crc.md) -/

/-- 40_crc.md section 2: a bit step is linear, fixes 0, and is a bijection for any polynomial with bit 31 set; so are
`k` bit steps. -/
def Obligations.BitStepsLinearBijective : Prop :=
  ∀ cfg : Config,
    (∀ (a b : CrcWord) (k : Nat), stepk cfg (a ^^^ b) k = stepk cfg a k ^^^ stepk cfg b k) ∧
    (∀ k, stepk cfg 0 k = 0) ∧
    (cfg.crcPolyReflected.getLsbD 31 = true → ∀ k, Function.Bijective fun c => stepk cfg c k)

/-- 40_crc.md section 2, the bit-stream meaning: an update is the single-bit updates of its bits, least-significant
first, for any parameter set. -/
def Obligations.UpdatesAreBitStreams : Prop :=
  ∀ (cfg : Config) (c : CrcWord),
    (∀ n : Nibble, upd4 cfg c n = updBits cfg c [n.getLsbD 0, n.getLsbD 1, n.getLsbD 2, n.getLsbD 3]) ∧
    (∀ b : Byte, upd8 cfg c b = updBits cfg c [b.getLsbD 0, b.getLsbD 1, b.getLsbD 2, b.getLsbD 3,
      b.getLsbD 4, b.getLsbD 5, b.getLsbD 6, b.getLsbD 7])

/-- 40_crc.md section 2, nibble-serial equals byte-serial with the low nibble first, for any parameter set; the other
order is the update for the byte with its nibbles swapped; and on the machine the two commands of `CRC.BYTEN b` leave
the registers that `CRC.BYTE b` leaves. -/
def Obligations.NibbleSerialIsByteSerial : Prop :=
  (∀ (cfg : Config) (c : CrcWord) (b : Byte),
    upd8 cfg c b = upd4 cfg (upd4 cfg c (b.extractLsb' 0 4)) (b.extractLsb' 4 4) ∧
    upd4 cfg (upd4 cfg c (b.extractLsb' 4 4)) (b.extractLsb' 0 4) =
      upd8 cfg c (b.extractLsb' 0 4 ++ b.extractLsb' 4 4)) ∧
  (∀ (s : State) (b : Byte), s.err = 0 → ∃ t u,
    runCmds (crcByteN b) s = some (t, [.ack, .ack]) ∧ exec (.crcByte b) s = .next u ∧ t = u)

/-- 40_crc.md section 2, the table forms, and the sixteen values of `T4` (under D1, log 5). -/
def Obligations.TableForms : Prop :=
  (∀ (cfg : Config) (c : CrcWord) (n : Nibble), upd4 cfg c n = upd4ByTable cfg c n) ∧
  (∀ (cfg : Config) (c : CrcWord) (b : Byte), upd8 cfg c b = upd8ByTable cfg c b) ∧
  (List.range 16).map (fun i => t4 sbx (BitVec.ofNat 4 i)) =
    [0x00000000, 0x1DB71064, 0x3B6E20C8, 0x26D930AC, 0x76DC4190, 0x6B6B51F4, 0x4DB26158, 0x5005713C,
     0xEDB88320, 0xF00F9344, 0xD6D6A3E8, 0xCB61B38C, 0x9B64C2B0, 0x86D3D2D4, 0xA00AE278, 0xBDBDF21C]

/-- 40_crc.md section 1 and 95_test_vectors.md section 2.2: the check value, two more vectors, and the empty message,
under the parameter set of D1 (log 5). -/
def Obligations.CheckValues : Prop :=
  crc32 sbx [0x31, 0x32, 0x33, 0x34, 0x35, 0x36, 0x37, 0x38, 0x39] = 0xCBF43926 ∧
  crc32 sbx [0x2A] = 0x09B9265B ∧
  crc32 sbx [0x2A, 0x6B, 0x6B, 0x6B, 0x6B, 0x6B, 0x6B, 0x6B, 0x6B] = 0x8DFB5FDB ∧ crc32 sbx [] = 0

/-- 40_crc.md section 3: a zero byte still changes a register that is not zero, so leading and trailing zero bytes count.
At zero it does not: the spec's own vector `upd8(0, 0) = 0` (log 21). Under the polynomial of D1 (log 5). -/
def Obligations.ZeroByteCounts : Prop :=
  (∀ c : CrcWord, c ≠ 0 → upd8 sbx c 0 ≠ c) ∧ upd8 sbx 0 0 = 0

/-- 40_crc.md section 2, single-bit error detection, for any parameter set whose polynomial has bit 31 set: two messages
that differ in exactly one bit have different checksums. -/
def Obligations.SingleBitErrorsDetected : Prop :=
  ∀ (cfg : Config) (before after : List Byte) (b : Byte) (j : Nat),
    cfg.crcPolyReflected.getLsbD 31 = true → j < 8 →
    crc32 cfg (before ++ (b ^^^ (1#8 <<< j)) :: after) ≠ crc32 cfg (before ++ b :: after)

/-- R115: `CRC.INIT`. -/
def Obligations.CrcInitStarts : Prop :=
  (∀ s : State, s.err = 0 →
    exec .crcInit s = .next { s with crc := 0xFFFFFFFF, exp := 0, expn := 0, rsp := some .ack }) ∧
  decode 0x100 = .ok .crcInit ∧ ∀ a : Byte, a ≠ 0 → RaisesIllegal (0x1#4 ++ a)

/-- 40_crc.md section 3, `CRC.BYTE b`: the byte is XORed into the register and eight bit steps follow; every other
register keeps its value and no `arg` is illegal. -/
def Obligations.CrcByteConsumes : Prop :=
  (∀ (b : Byte) (s : State), s.err = 0 →
    exec (.crcByte b) s = .next { s with crc := stepk sbx (s.crc ^^^ (0#24 ++ b)) 8, rsp := some .ack }) ∧
  (∀ b : Byte, decode (0x200 ||| b.setWidth 12) = .ok (.crcByte b)) ∧
  ∀ s : State, s.err = 0 → s.crc = 0xFFFFFFFF →
    exec (.crcByte 0x2A) s = .next { s with crc := 0xF646D9A4, rsp := some .ack }

/-- 40_crc.md section 3, `CRC.NIB n`: the nibble is XORed into the register and four bit steps follow; every other
register keeps its value, and `arg[7:4] != 0` is illegal. -/
def Obligations.CrcNibConsumes : Prop :=
  (∀ (n : Nibble) (s : State), s.err = 0 →
    exec (.crcNib n) s = .next { s with crc := stepk sbx (s.crc ^^^ (0#28 ++ n)) 4, rsp := some .ack }) ∧
  (∀ n : Nibble, decode (0x300 ||| n.setWidth 12) = .ok (.crcNib n)) ∧
  (∀ z n : BitVec 4, z ≠ 0 → RaisesIllegal (0x3#4 ++ z ++ n)) ∧
  ∀ s : State, s.err = 0 → s.crc = 0xFFFFFFFF →
    exec (.crcNib 0xA) s = .next { s with crc := 0x6494AE0B, rsp := some .ack }

/-- R120: `CRC.RD k` answers a byte of the checksum, most-significant first, and writes no register. -/
def Obligations.CrcRdReads : Prop :=
  (∀ (k : BitVec 2) (s : State), s.err = 0 →
    exec (.crcRd k) s = .next { s with rsp := some (.byte (
      if k = 0 then (s.crc ^^^ 0xFFFFFFFF).extractLsb' 24 8
      else if k = 1 then (s.crc ^^^ 0xFFFFFFFF).extractLsb' 16 8
      else if k = 2 then (s.crc ^^^ 0xFFFFFFFF).extractLsb' 8 8
      else (s.crc ^^^ 0xFFFFFFFF).extractLsb' 0 8)) }) ∧
  (∀ k : BitVec 2, decode (0x400 ||| k.setWidth 12) = .ok (.crcRd k)) ∧
  (∀ (z : BitVec 6) (k : BitVec 2), z ≠ 0 → RaisesIllegal (0x4#4 ++ z ++ k)) ∧
  ∀ s : State, s.err = 0 → s.crc = 0xF646D9A4 →
    runCmds crcSum s = some ({ s with rsp := some (.byte 0x5B) }, [.byte 0x09, .byte 0xB9, .byte 0x26, .byte 0x5B])

/-- R124: `EXP.BYTE b` loads the next byte of the received checksum, most-significant first; a load with `expn = 4` is
`SliceError` and changes nothing else. -/
def Obligations.ExpByteLoads : Prop :=
  (∀ (b : Byte) (s : State), s.err = 0 → s.expn ≠ 4 →
    exec (.expByte b) s = .next { s with exp := (s.exp <<< 8) ||| (0#24 ++ b), expn := s.expn + 1, rsp := some .ack }) ∧
  (∀ (b : Byte) (s : State), s.err = 0 → s.expn = 4 →
    exec (.expByte b) s = .next { s with err := 7, rsp := some (.err 7) }) ∧
  (∀ b : Byte, decode (0x500 ||| b.setWidth 12) = .ok (.expByte b)) ∧
  ∀ (s : State) (b0 b1 b2 b3 : Byte), s.err = 0 → s.exp = 0 → s.expn = 0 →
    runCmds [.expByte b0, .expByte b1, .expByte b2, .expByte b3] s =
      some ({ s with exp := b0 ++ b1 ++ b2 ++ b3, expn := 4, rsp := some .ack }, [.ack, .ack, .ack, .ack])

/-- R128: `CRC.VFY` tests the slice's length, then compares all 32 bits; a pass changes no register. -/
def Obligations.CrcVfyCompares : Prop :=
  (∀ s : State, s.err = 0 → s.expn ≠ 4 → exec .crcVfy s = .next { s with err := 7, rsp := some (.err 7) }) ∧
  (∀ s : State, s.err = 0 → s.expn = 4 → s.crc ^^^ 0xFFFFFFFF ≠ s.exp →
    exec .crcVfy s = .next { s with err := 5, rsp := some (.err 5) }) ∧
  (∀ s : State, s.err = 0 → s.expn = 4 → s.crc ^^^ 0xFFFFFFFF = s.exp →
    exec .crcVfy s = .next { s with rsp := some .pass }) ∧
  decode 0x600 = .ok .crcVfy ∧ ∀ a : Byte, a ≠ 0 → RaisesIllegal (0x6#4 ++ a)

/-- 40_crc.md section 4, the session result: after a run from a started session of commands that hold no `CRC.INIT`,
`RST` or `CRC.NIB`, in any order and with any commands of the codec unit between them, and that raised no fault, the
checksum is the CRC32 of the bytes of the `CRC.BYTE` commands; `CRC.RD 0` to `3` answer its four bytes; and where the
loads were `e0` to `e3`, `CRC.VFY` passes exactly when they are that CRC32. -/
def Obligations.SessionResult : Prop :=
  ∀ (s t : State) (cs : List Instr) (rs : List Rsp),
    s.err = 0 → s.crc = 0xFFFFFFFF → s.exp = 0 → s.expn = 0 →
    (∀ c ∈ cs, c ≠ .crcInit ∧ c ≠ .rst ∧ ∀ n, c ≠ .crcNib n) →
    runCmds cs s = some (t, rs) → t.err = 0 →
    let m := cs.filterMap fun c => match c with | .crcByte b => some b | _ => none
    let es := cs.filterMap fun c => match c with | .expByte b => some b | _ => none
    t.crc ^^^ 0xFFFFFFFF = crc32 sbx m ∧
    (∃ u, runCmds crcSum t = some (u, (checksumBytes (crc32 sbx m)).map .byte) ∧ SameRegs t u) ∧
    ∀ e0 e1 e2 e3 : Byte, es = [e0, e1, e2, e3] →
      ∃ v, exec .crcVfy t = .next v ∧ (v.rsp = some .pass ↔ e0 ++ e1 ++ e2 ++ e3 = crc32 sbx m)

/-- The hardware's share of the tamper-detection property (40_crc.md section 2; 45_frame_protocol.md section 4): in a
session over a message with exactly one bit flipped, `CRC.VFY` against the checksum of the unflipped message raises
`IntegrityError`, whatever the session's start. -/
def Obligations.TamperDetected : Prop :=
  ∀ (s : State) (before after : List Byte) (b : Byte) (j : Nat), s.err = 0 → j < 8 →
    ∃ t rs,
      runCmds (.crcInit :: (crcBytes (before ++ (b ^^^ (1#8 <<< j)) :: after) ++
        expWord (crc32 sbx (before ++ b :: after)) ++ [.crcVfy])) s = some (t, rs) ∧
      t.err = 5 ∧ rs = List.replicate (before.length + after.length + 6) .ack ++ [.err 5]

/-! ### The serializer (41_serializer.md) -/

/-- R140: `SER.NIB n` answers four symbols, most-significant bit first, the first in bits 31 to 24; a space for 0 and a
tab for 1; and writes no register. -/
def Obligations.SerNibExpands : Prop :=
  (∀ (n : Nibble) (s : State), s.err = 0 → ∃ d : RspData,
    exec (.serNib n) s = .next { s with rsp := some (.sym4 d) } ∧
    d.extractLsb' 24 8 = (if n.getLsbD 3 then 0x09 else 0x20) ∧
    d.extractLsb' 16 8 = (if n.getLsbD 2 then 0x09 else 0x20) ∧
    d.extractLsb' 8 8 = (if n.getLsbD 1 then 0x09 else 0x20) ∧
    d.extractLsb' 0 8 = (if n.getLsbD 0 then 0x09 else 0x20)) ∧
  (∀ n : Nibble, decode (0x700 ||| n.setWidth 12) = .ok (.serNib n)) ∧
  (∀ z n : BitVec 4, z ≠ 0 → RaisesIllegal (0x7#4 ++ z ++ n)) ∧
  sym4 sbx 0x0 = 0x20202020 ∧ sym4 sbx 0xF = 0x09090909 ∧ sym4 sbx 0xA = 0x09200920

/-- 41_serializer.md section 3, the length law: the `SER.BYTE` commands of a byte string answer `8 * L` symbols, each a
space or a tab; the symbols of a byte spell it most-significant bit first; no register changes. -/
def Obligations.SerializerLength : Prop :=
  ∀ (s : State) (bs : List Byte), s.err = 0 → ∃ t rs,
    runCmds (serBytes bs) s = some (t, rs) ∧ SameRegs s t ∧
    symbolsOf rs = bs.flatMap (fun b => (List.range 8).map fun i => if b.getLsbD (7 - i) then 0x09 else 0x20) ∧
    (symbolsOf rs).length = 8 * bs.length

/-! ### The deserializer (42_deserializer.md) -/

/-- R164: `DES.INIT`. -/
def Obligations.DesInitStarts : Prop :=
  (∀ s : State, s.err = 0 →
    exec .desInit s = .next { s with sh := 0, bcnt := 0, any := false, ws := false, rsp := some .ack }) ∧
  decode 0x800 = .ok .desInit ∧ ∀ a : Byte, a ≠ 0 → RaisesIllegal (0x8#4 ++ a)

/-- R166: `DES.SYM c`. An accepted octet enters its bit at `sh[0]` and reports a completed nibble or byte; any other
octet only sets `any`. The last clause is the rule's example. -/
def Obligations.DesSymPacks : Prop :=
  (∀ (c : Byte) (s : State), s.err = 0 → (c = 0x20 ∨ c = 0x09) →
    ∃ sh' : Byte, sh' = (s.sh <<< 1) ||| (if c = 0x09 then 1 else 0) ∧
    exec (.desSym c) s = .next { s with
      any := true, ws := true, sh := sh', bcnt := BitVec.ofNat 3 ((s.bcnt.toNat + 1) % 8),
      rsp := some (
        if (s.bcnt.toNat + 1) % 8 = 4 then .nibh (sh'.extractLsb' 0 4)
        else if (s.bcnt.toNat + 1) % 8 = 0 then .byte sh'
        else .ack) }) ∧
  (∀ (c : Byte) (s : State), s.err = 0 → c ≠ 0x20 → c ≠ 0x09 →
    exec (.desSym c) s = .next { s with any := true, rsp := some .ack }) ∧
  (∀ c : Byte, decode (0x900 ||| c.setWidth 12) = .ok (.desSym c)) ∧
  runWords [0x920, 0x920, 0x909, 0x920] State.reset =
    some ({ State.reset with sh := 0x02, bcnt := 4, any := true, ws := true, rsp := some (.nibh 0x2) },
      [.ack, .ack, .ack, .nibh 0x2]) ∧
  runWords [0x920, 0x920, 0x909, 0x920, 0x909, 0x920, 0x909, 0x920] State.reset =
    some ({ State.reset with sh := 0x2A, bcnt := 0, any := true, ws := true, rsp := some (.byte 0x2A) },
      [.ack, .ack, .ack, .nibh 0x2, .ack, .ack, .ack, .byte 0x2A])

/-- R168: the response kinds of `DES.SYM` tell the phase of the stream, counted in accepted octets from 1, and a byte's
low nibble is `rsp_data[3:0]` of its `BYTE` response. -/
def Obligations.DesSymPhases : Prop :=
  ∀ (s : State) (text : List Byte) (c : Byte), s.err = 0 → ∃ t rs u,
    runCmds (.desInit :: text.map .desSym) s = some (t, rs) ∧ exec (.desSym c) t = .next u ∧
    let index := (text.filter fun o => o = 0x20 || o = 0x09).length + 1
    u.rspKind = some (
      if c = 0x20 ∨ c = 0x09 then (if index % 8 = 4 then 2 else if index % 8 = 0 then 3 else 0) else 0) ∧
    ∀ b, u.rsp = some (.byte b) → u.rspData.map (·.extractLsb' 0 4) = some (b.extractLsb' 0 4)

/-- R172: `DES.END` makes its four tests in their order; a fault keeps the codec registers, a pass clears them. -/
def Obligations.DesEndTests : Prop :=
  (∀ s : State, s.err = 0 → s.any = false → exec .desEnd s = .next { s with err := 8, rsp := some (.err 8) }) ∧
  (∀ s : State, s.err = 0 → s.any = true → s.ws = false →
    exec .desEnd s = .next { s with err := 4, rsp := some (.err 4) }) ∧
  (∀ s : State, s.err = 0 → s.any = true → s.ws = true → s.bcnt.toNat % 4 ≠ 0 →
    exec .desEnd s = .next { s with err := 4, rsp := some (.err 4) }) ∧
  (∀ s : State, s.err = 0 → s.any = true → s.ws = true → s.bcnt = 4 →
    exec .desEnd s = .next { s with err := 2, rsp := some (.err 2) }) ∧
  (∀ s : State, s.err = 0 → s.any = true → s.ws = true → s.bcnt = 0 →
    exec .desEnd s = .next { s with sh := 0, bcnt := 0, any := false, ws := false, rsp := some .pass }) ∧
  decode 0xA00 = .ok .desEnd ∧ (∀ a : Byte, a ≠ 0 → RaisesIllegal (0xA#4 ++ a)) ∧
  (∃ t rs, runWords [0x920, 0x920, 0x909, 0x920, 0x909, 0x920, 0x909, 0x920, 0xA00] State.reset = some (t, rs) ∧
    t.rsp = some .pass ∧ SameCodec State.reset t) ∧
  ∃ t rs, runWords [0x920, 0x920, 0x909, 0x920, 0xA00] State.reset = some (t, rs) ∧
    t.rsp = some (.err 2) ∧ t.err = 2

/-- 42_deserializer.md section 3, agreement with the source's batch procedure: for the octets `text` of a session and
their filtered subsequence `f`, the bytes answered are the groups of eight bits of `f`, and `DES.END` ends as the
source's steps 1 to 7 do on the same input. -/
def Obligations.DeserializerAgreesWithBatch : Prop :=
  ∀ (s : State) (text : List Byte), s.err = 0 → ∃ t rs u,
    runCmds (.desInit :: text.map .desSym) s = some (t, rs) ∧ SameCrc s t ∧ t.err = 0 ∧ exec .desEnd t = .next u ∧
    let f := text.filter fun o => o = 0x20 || o = 0x09
    (bytesOf rs).length = f.length / 8 ∧
    (∀ j i, j < f.length / 8 → i < 8 →
      (bytesOf rs)[j]?.map (·.getLsbD (7 - i)) = f[8 * j + i]?.map (fun o => o == 0x09)) ∧
    (text = [] → u.rsp = some (.err 8)) ∧
    (text ≠ [] → f.length = 0 → u.rsp = some (.err 4)) ∧
    (f.length % 4 ≠ 0 → u.rsp = some (.err 4)) ∧
    (f.length % 8 = 4 → u.rsp = some (.err 2)) ∧
    (0 < f.length → f.length % 8 = 0 → u.rsp = some .pass)

/-- 41_serializer.md section 3, the round trip of the codec: the symbols that the machine answers for a byte give it
back, and those of any non-empty byte string give its bytes back in order and then `PASS`. -/
def Obligations.CodecRoundTrip : Prop :=
  (∀ (s s' : State) (b : Byte), s.err = 0 → s'.err = 0 → ∃ t rs u,
    runCmds (serByte b) s = some (t, rs) ∧
    runCmds (.desInit :: (symbolsOf rs).map .desSym) s' =
      some (u, [.ack, .ack, .ack, .ack, .nibh (b.extractLsb' 4 4), .ack, .ack, .ack, .byte b]) ∧
    u.bcnt = 0) ∧
  (∀ (s s' : State) (bs : List Byte), s.err = 0 → s'.err = 0 → bs ≠ [] → ∃ t rs u rs',
    runCmds (serBytes bs) s = some (t, rs) ∧
    runCmds (deserializeCmds (symbolsOf rs)) s' = some (u, rs') ∧ bytesOf rs' = bs ∧ u.rsp = some .pass)

/-! ### The system commands (43_system.md) -/

/-- R190: `NOP`. -/
def Obligations.NopDoesNothing : Prop :=
  (∀ s : State, s.err = 0 → exec .nop s = .next { s with rsp := some .ack }) ∧
  (∀ s : State, s.err ≠ 0 → exec .nop s = .next { s with rsp := some (.err s.err) }) ∧
  decode 0x000 = .ok .nop ∧ (∀ a : Byte, a ≠ 0 → RaisesIllegal (0x0#4 ++ a)) ∧
  ∀ (s : State) (c : ClockIn) (rest : List ClockIn), s.inputs = c :: rest → c.rst = false → c.cmdValid = false →
    ∃ t, step s = .next t ∧ SameRegs s t ∧ t.rsp = none

/-- R192: `RST` is executed whatever `err` holds, and the words `0xF01` to `0xFFF` are not `RST`. -/
def Obligations.RstResets : Prop :=
  (∀ s : State, exec .rst s = .next { s with
    crc := 0xFFFFFFFF, exp := 0, expn := 0, sh := 0, bcnt := 0, any := false, ws := false, err := 0,
    rsp := some .ack }) ∧
  (∀ s : State, ∃ t, exec .rst s = .next t ∧ SameRegs State.reset t ∧ t.faultO = false) ∧
  decode 0xF00 = .ok .rst ∧
  ∀ a : Byte, a ≠ 0 → RaisesIllegal (0xF#4 ++ a) ∧
    ∀ s : State, s.err ≠ 0 → step (s.present (0xF#4 ++ a)) = .next { s with rsp := some (.err s.err) }

/-! ### The host's transform around the machine (45_frame_protocol.md; outside the hardware, R4; log 17) -/

/-- 45_frame_protocol.md section 4, round trip: what the encoder makes of a plaintext with a non-empty key and any 8-byte
salt has `8 * (P + 20)` symbols and decodes to the plaintext, on any machine with `err = 0`. -/
def Obligations.FrameRoundTrip : Prop :=
  ∀ (key plain : List Byte) (salt : Vector Byte 8) (s s' : State), key ≠ [] → s.err = 0 → s'.err = 0 →
    ∃ u text u', hostEncrypt key salt plain s = (u, .ok text) ∧ text.length = 8 * (plain.length + 20) ∧
      hostDecrypt key text s' = (u', .ok plain)

/-- 90_conflicts.md C6: a wrong key passes `CRC.VFY`. Any non-empty key decodes the frame to the bytes that key gives, with
no error up to those bytes. The model's host stops at bytes: reading them as UTF-8 text, where R212 may still end in
`Utf8Error`, is left out (log 17). -/
def Obligations.WrongKeyUndetected : Prop :=
  ∀ (key key' plain : List Byte) (salt : Vector Byte 8) (s s' : State), key ≠ [] → key' ≠ [] → s.err = 0 →
    s'.err = 0 → ∃ u text u' payload, hostEncrypt key salt plain s = (u, .ok text) ∧
      (encryptedPayload key salt.toList plain).bind (cipher key') = some payload ∧
      hostDecrypt key' text s' = (u', .ok (payload.take plain.length))

/-- 45_frame_protocol.md sections 3 and 4, the failing inputs, in the order of the tests: the empty input fails with
`EmptyFile`, one with no space and no tab with `InvalidFormat`, a filtered bit count that is no multiple of 4 with
`InvalidFormat`, an odd number of nibbles with `HexError`, each leaving the machine reset; 1 to 12 bytes with
`InvalidFormat`, the CRC unit not used; and an empty key on encoding with `InvalidKey`, the machine not used. -/
def Obligations.HostErrors : Prop :=
  (∀ (key text : List Byte) (s : State), key ≠ [] → s.err = 0 → ∃ u r, hostDecrypt key text s = (u, r) ∧
    let count := (text.filter fun o => o = 0x20 || o = 0x09).length
    (text = [] → r = .failed .emptyFile ∧ SameRegs State.reset u) ∧
    (text ≠ [] → count = 0 → r = .failed .invalidFormat ∧ SameRegs State.reset u) ∧
    (count % 4 ≠ 0 → r = .failed .invalidFormat ∧ SameRegs State.reset u) ∧
    (count % 8 = 4 → r = .failed .hexError ∧ SameRegs State.reset u) ∧
    (0 < count → count ≤ 96 → count % 8 = 0 → r = .failed .invalidFormat ∧ SameCrc s u ∧ u.err = 0)) ∧
  ∀ (salt : Vector Byte 8) (plain : List Byte) (s : State), hostEncrypt [] salt plain s = (s, .failed .invalidKey)

/-- R217's tamper detection for the whole transform (45_frame_protocol.md section 4; 40_crc.md section 2): exchange any one
symbol of the encrypted payload's `8 * (P + 8)` in what the encoder made, and the decoder fails with `IntegrityError`,
whatever non-empty key it is given, and leaves the machine reset. -/
def Obligations.HostTamperDetected : Prop :=
  ∀ (key key' plain : List Byte) (salt : Vector Byte 8) (s s' : State) (k : Nat), key ≠ [] → key' ≠ [] →
    s.err = 0 → s'.err = 0 → k < 8 * (plain.length + 8) →
    ∃ u text u', hostEncrypt key salt plain s = (u, .ok text) ∧ flipSymbol text k ≠ text ∧
      hostDecrypt key' (flipSymbol text k) s' = (u', .failed .integrityError) ∧ SameRegs State.reset u'

/-- R215's last duty (45_frame_protocol.md section 4): the host discards a session at an `ERR` and issues `RST`, so with a
non-empty key it leaves every machine fault-free. The second clause, what the host reports of a machine that it finds in
the fault state with the code of an error kind (that kind, and neither symbols nor plaintext), is the model's choice, which
R215 does not state (DESIGN CHOICE: log 25); that it leaves that machine reset is R215's duty again. -/
def Obligations.HostResetsAfterError : Prop :=
  (∀ (key text plain : List Byte) (salt : Vector Byte 8) (s : State), key ≠ [] →
    (hostEncrypt key salt plain s).1.err = 0 ∧ (hostDecrypt key text s).1.err = 0) ∧
  ∀ (key text plain : List Byte) (salt : Vector Byte 8) (s : State) (kind : ErrorKind), key ≠ [] → s.err = kind.code →
    ∃ u, hostEncrypt key salt plain s = (u, .failed kind) ∧ hostDecrypt key text s = (u, .failed kind) ∧
      SameRegs State.reset u
end

