-- ==== Sys2Proof/Laws/State.lean ====
section
/-! SUPPORT. One lemma per field per update of the state, each true by definition: no proof unfolds an update. -/

namespace Sys2Proof.Machine

variable (s : State)

@[simp] theorem State.respond_crc (r : Rsp) : (s.respond r).crc = s.crc := rfl
@[simp] theorem State.respond_exp (r : Rsp) : (s.respond r).exp = s.exp := rfl
@[simp] theorem State.respond_expn (r : Rsp) : (s.respond r).expn = s.expn := rfl
@[simp] theorem State.respond_sh (r : Rsp) : (s.respond r).sh = s.sh := rfl
@[simp] theorem State.respond_bcnt (r : Rsp) : (s.respond r).bcnt = s.bcnt := rfl
@[simp] theorem State.respond_any (r : Rsp) : (s.respond r).any = s.any := rfl
@[simp] theorem State.respond_ws (r : Rsp) : (s.respond r).ws = s.ws := rfl
@[simp] theorem State.respond_err (r : Rsp) : (s.respond r).err = s.err := rfl
@[simp] theorem State.respond_rsp (r : Rsp) : (s.respond r).rsp = some r := rfl
@[simp] theorem State.respond_inputs (r : Rsp) : (s.respond r).inputs = s.inputs := rfl

@[simp] theorem State.raise_crc (e : ErrorKind) : (s.raise e).crc = s.crc := rfl
@[simp] theorem State.raise_exp (e : ErrorKind) : (s.raise e).exp = s.exp := rfl
@[simp] theorem State.raise_expn (e : ErrorKind) : (s.raise e).expn = s.expn := rfl
@[simp] theorem State.raise_sh (e : ErrorKind) : (s.raise e).sh = s.sh := rfl
@[simp] theorem State.raise_bcnt (e : ErrorKind) : (s.raise e).bcnt = s.bcnt := rfl
@[simp] theorem State.raise_any (e : ErrorKind) : (s.raise e).any = s.any := rfl
@[simp] theorem State.raise_ws (e : ErrorKind) : (s.raise e).ws = s.ws := rfl
@[simp] theorem State.raise_err (e : ErrorKind) : (s.raise e).err = e.code := rfl
@[simp] theorem State.raise_rsp (e : ErrorKind) : (s.raise e).rsp = some (.err e.code) := rfl
@[simp] theorem State.raise_inputs (e : ErrorKind) : (s.raise e).inputs = s.inputs := rfl

@[simp] theorem State.clearAll_crc : s.clearAll.crc = sbx.crcInit := rfl
@[simp] theorem State.clearAll_exp : s.clearAll.exp = 0 := rfl
@[simp] theorem State.clearAll_expn : s.clearAll.expn = 0 := rfl
@[simp] theorem State.clearAll_sh : s.clearAll.sh = 0 := rfl
@[simp] theorem State.clearAll_bcnt : s.clearAll.bcnt = 0 := rfl
@[simp] theorem State.clearAll_any : s.clearAll.any = false := rfl
@[simp] theorem State.clearAll_ws : s.clearAll.ws = false := rfl
@[simp] theorem State.clearAll_err : s.clearAll.err = 0 := rfl
@[simp] theorem State.clearAll_rsp : s.clearAll.rsp = s.rsp := rfl
@[simp] theorem State.clearAll_inputs : s.clearAll.inputs = s.inputs := rfl

@[simp] theorem State.resetClock_crc : s.resetClock.crc = sbx.crcInit := rfl
@[simp] theorem State.resetClock_exp : s.resetClock.exp = 0 := rfl
@[simp] theorem State.resetClock_expn : s.resetClock.expn = 0 := rfl
@[simp] theorem State.resetClock_sh : s.resetClock.sh = 0 := rfl
@[simp] theorem State.resetClock_bcnt : s.resetClock.bcnt = 0 := rfl
@[simp] theorem State.resetClock_any : s.resetClock.any = false := rfl
@[simp] theorem State.resetClock_ws : s.resetClock.ws = false := rfl
@[simp] theorem State.resetClock_err : s.resetClock.err = 0 := rfl
@[simp] theorem State.resetClock_rsp : s.resetClock.rsp = none := rfl
@[simp] theorem State.resetClock_inputs : s.resetClock.inputs = s.inputs := rfl

@[simp] theorem State.idleClock_crc : s.idleClock.crc = s.crc := rfl
@[simp] theorem State.idleClock_exp : s.idleClock.exp = s.exp := rfl
@[simp] theorem State.idleClock_expn : s.idleClock.expn = s.expn := rfl
@[simp] theorem State.idleClock_sh : s.idleClock.sh = s.sh := rfl
@[simp] theorem State.idleClock_bcnt : s.idleClock.bcnt = s.bcnt := rfl
@[simp] theorem State.idleClock_any : s.idleClock.any = s.any := rfl
@[simp] theorem State.idleClock_ws : s.idleClock.ws = s.ws := rfl
@[simp] theorem State.idleClock_err : s.idleClock.err = s.err := rfl
@[simp] theorem State.idleClock_rsp : s.idleClock.rsp = none := rfl
@[simp] theorem State.idleClock_inputs : s.idleClock.inputs = s.inputs := rfl

@[simp] theorem State.startCrc_crc : s.startCrc.crc = sbx.crcInit := rfl
@[simp] theorem State.startCrc_exp : s.startCrc.exp = 0 := rfl
@[simp] theorem State.startCrc_expn : s.startCrc.expn = 0 := rfl
@[simp] theorem State.startCrc_sh : s.startCrc.sh = s.sh := rfl
@[simp] theorem State.startCrc_bcnt : s.startCrc.bcnt = s.bcnt := rfl
@[simp] theorem State.startCrc_any : s.startCrc.any = s.any := rfl
@[simp] theorem State.startCrc_ws : s.startCrc.ws = s.ws := rfl
@[simp] theorem State.startCrc_err : s.startCrc.err = s.err := rfl
@[simp] theorem State.startCrc_rsp : s.startCrc.rsp = s.rsp := rfl
@[simp] theorem State.startCrc_inputs : s.startCrc.inputs = s.inputs := rfl

@[simp] theorem State.setCrc_crc (c : CrcWord) : (s.setCrc c).crc = c := rfl
@[simp] theorem State.setCrc_exp (c : CrcWord) : (s.setCrc c).exp = s.exp := rfl
@[simp] theorem State.setCrc_expn (c : CrcWord) : (s.setCrc c).expn = s.expn := rfl
@[simp] theorem State.setCrc_sh (c : CrcWord) : (s.setCrc c).sh = s.sh := rfl
@[simp] theorem State.setCrc_bcnt (c : CrcWord) : (s.setCrc c).bcnt = s.bcnt := rfl
@[simp] theorem State.setCrc_any (c : CrcWord) : (s.setCrc c).any = s.any := rfl
@[simp] theorem State.setCrc_ws (c : CrcWord) : (s.setCrc c).ws = s.ws := rfl
@[simp] theorem State.setCrc_err (c : CrcWord) : (s.setCrc c).err = s.err := rfl
@[simp] theorem State.setCrc_rsp (c : CrcWord) : (s.setCrc c).rsp = s.rsp := rfl
@[simp] theorem State.setCrc_inputs (c : CrcWord) : (s.setCrc c).inputs = s.inputs := rfl

@[simp] theorem State.loadExp_crc (b : Byte) : (s.loadExp b).crc = s.crc := rfl
@[simp] theorem State.loadExp_exp (b : Byte) : (s.loadExp b).exp = s.exp.extractLsb' 0 24 ++ b := rfl
@[simp] theorem State.loadExp_expn (b : Byte) : (s.loadExp b).expn = s.expn + 1 := rfl
@[simp] theorem State.loadExp_sh (b : Byte) : (s.loadExp b).sh = s.sh := rfl
@[simp] theorem State.loadExp_bcnt (b : Byte) : (s.loadExp b).bcnt = s.bcnt := rfl
@[simp] theorem State.loadExp_any (b : Byte) : (s.loadExp b).any = s.any := rfl
@[simp] theorem State.loadExp_ws (b : Byte) : (s.loadExp b).ws = s.ws := rfl
@[simp] theorem State.loadExp_err (b : Byte) : (s.loadExp b).err = s.err := rfl
@[simp] theorem State.loadExp_rsp (b : Byte) : (s.loadExp b).rsp = s.rsp := rfl
@[simp] theorem State.loadExp_inputs (b : Byte) : (s.loadExp b).inputs = s.inputs := rfl

@[simp] theorem State.clearCodec_crc : s.clearCodec.crc = s.crc := rfl
@[simp] theorem State.clearCodec_exp : s.clearCodec.exp = s.exp := rfl
@[simp] theorem State.clearCodec_expn : s.clearCodec.expn = s.expn := rfl
@[simp] theorem State.clearCodec_sh : s.clearCodec.sh = 0 := rfl
@[simp] theorem State.clearCodec_bcnt : s.clearCodec.bcnt = 0 := rfl
@[simp] theorem State.clearCodec_any : s.clearCodec.any = false := rfl
@[simp] theorem State.clearCodec_ws : s.clearCodec.ws = false := rfl
@[simp] theorem State.clearCodec_err : s.clearCodec.err = s.err := rfl
@[simp] theorem State.clearCodec_rsp : s.clearCodec.rsp = s.rsp := rfl
@[simp] theorem State.clearCodec_inputs : s.clearCodec.inputs = s.inputs := rfl

@[simp] theorem State.packBit_crc (d : BitVec 1) : (s.packBit d).crc = s.crc := rfl
@[simp] theorem State.packBit_exp (d : BitVec 1) : (s.packBit d).exp = s.exp := rfl
@[simp] theorem State.packBit_expn (d : BitVec 1) : (s.packBit d).expn = s.expn := rfl
@[simp] theorem State.packBit_sh (d : BitVec 1) : (s.packBit d).sh = s.sh.extractLsb' 0 7 ++ d := rfl
@[simp] theorem State.packBit_bcnt (d : BitVec 1) : (s.packBit d).bcnt = s.bcnt + 1 := rfl
@[simp] theorem State.packBit_any (d : BitVec 1) : (s.packBit d).any = s.any := rfl
@[simp] theorem State.packBit_ws (d : BitVec 1) : (s.packBit d).ws = s.ws := rfl
@[simp] theorem State.packBit_err (d : BitVec 1) : (s.packBit d).err = s.err := rfl
@[simp] theorem State.packBit_rsp (d : BitVec 1) : (s.packBit d).rsp = s.rsp := rfl
@[simp] theorem State.packBit_inputs (d : BitVec 1) : (s.packBit d).inputs = s.inputs := rfl

@[simp] theorem State.noteOctet_crc : s.noteOctet.crc = s.crc := rfl
@[simp] theorem State.noteOctet_exp : s.noteOctet.exp = s.exp := rfl
@[simp] theorem State.noteOctet_expn : s.noteOctet.expn = s.expn := rfl
@[simp] theorem State.noteOctet_sh : s.noteOctet.sh = s.sh := rfl
@[simp] theorem State.noteOctet_bcnt : s.noteOctet.bcnt = s.bcnt := rfl
@[simp] theorem State.noteOctet_any : s.noteOctet.any = true := rfl
@[simp] theorem State.noteOctet_ws : s.noteOctet.ws = s.ws := rfl
@[simp] theorem State.noteOctet_err : s.noteOctet.err = s.err := rfl
@[simp] theorem State.noteOctet_rsp : s.noteOctet.rsp = s.rsp := rfl
@[simp] theorem State.noteOctet_inputs : s.noteOctet.inputs = s.inputs := rfl

@[simp] theorem State.noteAccepted_crc : s.noteAccepted.crc = s.crc := rfl
@[simp] theorem State.noteAccepted_exp : s.noteAccepted.exp = s.exp := rfl
@[simp] theorem State.noteAccepted_expn : s.noteAccepted.expn = s.expn := rfl
@[simp] theorem State.noteAccepted_sh : s.noteAccepted.sh = s.sh := rfl
@[simp] theorem State.noteAccepted_bcnt : s.noteAccepted.bcnt = s.bcnt := rfl
@[simp] theorem State.noteAccepted_any : s.noteAccepted.any = s.any := rfl
@[simp] theorem State.noteAccepted_ws : s.noteAccepted.ws = true := rfl
@[simp] theorem State.noteAccepted_err : s.noteAccepted.err = s.err := rfl
@[simp] theorem State.noteAccepted_rsp : s.noteAccepted.rsp = s.rsp := rfl
@[simp] theorem State.noteAccepted_inputs : s.noteAccepted.inputs = s.inputs := rfl

@[simp] theorem State.present_crc (w : CmdWord) : (s.present w).crc = s.crc := rfl
@[simp] theorem State.present_exp (w : CmdWord) : (s.present w).exp = s.exp := rfl
@[simp] theorem State.present_expn (w : CmdWord) : (s.present w).expn = s.expn := rfl
@[simp] theorem State.present_sh (w : CmdWord) : (s.present w).sh = s.sh := rfl
@[simp] theorem State.present_bcnt (w : CmdWord) : (s.present w).bcnt = s.bcnt := rfl
@[simp] theorem State.present_any (w : CmdWord) : (s.present w).any = s.any := rfl
@[simp] theorem State.present_ws (w : CmdWord) : (s.present w).ws = s.ws := rfl
@[simp] theorem State.present_err (w : CmdWord) : (s.present w).err = s.err := rfl
@[simp] theorem State.present_rsp (w : CmdWord) : (s.present w).rsp = s.rsp := rfl
@[simp] theorem State.present_inputs (w : CmdWord) : (s.present w).inputs = .command w :: s.inputs := rfl

end Sys2Proof.Machine
end

