-- ==== Sys2Proof/Laws/Ops.lean ====
section
/-! SUPPORT. For each shared operation, once, all it can do. -/

namespace Sys2Proof.Machine

/-! The order of a step (R240) and the fault operations (R236, R79). -/

theorem State.unlessFaulted_of_faultFree {s : State} (t : State) (h : s.err = 0) : s.unlessFaulted t = t :=
  if_pos h

theorem State.unlessFaulted_of_faulted {s : State} (t : State) (h : s.err ≠ 0) :
    s.unlessFaulted t = s.respond (.err s.err) :=
  if_neg h

/-- Either the machine was fault-free and the command ran, or it was not and nothing but the response changed. -/
theorem State.unlessFaulted_cases (s t : State) :
    (s.err = 0 ∧ s.unlessFaulted t = t) ∨ (s.err ≠ 0 ∧ s.unlessFaulted t = s.respond (.err s.err)) := by
  by_cases h : s.err = 0
  · exact .inl ⟨h, unlessFaulted_of_faultFree t h⟩
  · exact .inr ⟨h, unlessFaulted_of_faulted t h⟩

theorem State.raise_eq (s : State) (e : ErrorKind) :
    s.raise e = { s with err := e.code, rsp := some (.err e.code) } := rfl

theorem ErrorKind.code_ne_zero (e : ErrorKind) : e.code ≠ 0 := by cases e <;> decide

theorem ErrorKind.ofCode_code (e : ErrorKind) : ErrorKind.ofCode e.code = some e := by cases e <;> decide

theorem State.illegalWord_cases (s : State) :
    (s.err = 0 ∧ s.illegalWord = s.raise .illegalCommand) ∨
      (s.err ≠ 0 ∧ s.illegalWord = s.respond (.err s.err)) :=
  s.unlessFaulted_cases _

/-! The tests of the status (R128, R172). -/

/-- What `CRC.VFY` finds, and when. -/
theorem State.verifyError_cases (s : State) :
    (s.expn ≠ 4 ∧ s.verifyError = some .sliceError) ∨
      (s.expn = 4 ∧ checksum sbx s.crc ≠ s.exp ∧ s.verifyError = some .integrityError) ∨
      (s.expn = 4 ∧ checksum sbx s.crc = s.exp ∧ s.verifyError = none) := by
  unfold State.verifyError
  by_cases h : s.expn = 4 <;> by_cases h' : checksum sbx s.crc = s.exp <;> simp_all

/-- What `DES.END` finds, and when. -/
theorem State.streamError_cases (s : State) :
    (s.any = false ∧ s.streamError = some .emptyFile) ∨
      (s.any = true ∧ s.ws = false ∧ s.streamError = some .invalidFormat) ∨
      (s.any = true ∧ s.ws = true ∧ s.bcnt ≠ 0 ∧ s.bcnt ≠ 4 ∧ s.streamError = some .invalidFormat) ∨
      (s.any = true ∧ s.ws = true ∧ s.bcnt = 4 ∧ s.streamError = some .hexError) ∨
      (s.any = true ∧ s.ws = true ∧ s.bcnt = 0 ∧ s.streamError = none) := by
  have quarter : ∀ n : BitVec 3, n.toNat % 4 ≠ 0 ↔ n ≠ 0 ∧ n ≠ 4 := by decide
  unfold State.streamError
  simp only [quarter]
  by_cases ha : s.any = false <;> by_cases hw : s.ws = false <;> by_cases h0 : s.bcnt = 0 <;>
    by_cases h4 : s.bcnt = 4 <;> simp_all

/-- What a packed bit reports, and when. -/
theorem State.packReport_cases (s : State) :
    (s.bcnt = 4 ∧ s.packReport = .nibh (s.sh.extractLsb' 0 4)) ∨
      (s.bcnt = 0 ∧ s.packReport = .byte s.sh) ∨ (s.bcnt ≠ 4 ∧ s.bcnt ≠ 0 ∧ s.packReport = .ack) := by
  unfold State.packReport
  by_cases h4 : s.bcnt = 4 <;> by_cases h0 : s.bcnt = 0 <;> simp_all

/-! The filter (R160). -/

theorem accepted_iff (cfg : Config) (c : Byte) : accepted cfg c = true ↔ c = cfg.sym0 ∨ c = cfg.sym1 := by
  simp [accepted]

/-- An accepted octet as the effect on the registers that R166 lists. -/
theorem State.accept_eq (s : State) (d : BitVec 1) :
    s.accept d = { s with
      any := true, ws := true, sh := s.sh.extractLsb' 0 7 ++ d, bcnt := s.bcnt + 1,
      rsp := some (State.packReport { s with sh := s.sh.extractLsb' 0 7 ++ d, bcnt := s.bcnt + 1 }) } := rfl

/-! The clock (R40). -/

theorem step_idle {s : State} (h : s.inputs = []) : step s = .next s.idleClock := by
  simp [step, h]

theorem step_clock {s : State} {c : ClockIn} {rest : List ClockIn} (h : s.inputs = c :: rest) :
    step s = clockEdge c { s with inputs := rest } := by
  simp [step, h]

theorem step_present (s : State) (w : CmdWord) : step (s.present w) = execWord w s := rfl

/-- A word is executed as the command it decodes to, or raises `IllegalCommand`. -/
theorem execWord_cases (w : CmdWord) (s : State) :
    (∃ i, decode w = .ok i ∧ execWord w s = exec i s) ∨
      (∃ e, decode w = .error e ∧ execWord w s = .next s.illegalWord) := by
  cases h : decode w with
  | ok i => exact .inl ⟨i, rfl, by simp [execWord, h]⟩
  | error e => exact .inr ⟨e, rfl, by simp [execWord, h]⟩

/-- A clock is a reset, a command, or neither. -/
theorem clockEdge_cases (c : ClockIn) (s : State) :
    (c.rst = true ∧ clockEdge c s = .next s.resetClock) ∨
      (c.rst = false ∧ c.cmdValid = true ∧ clockEdge c s = execWord c.cmd s) ∨
      (c.rst = false ∧ c.cmdValid = false ∧ clockEdge c s = .next s.idleClock) := by
  cases hr : c.rst <;> cases hv : c.cmdValid <;> simp [clockEdge, hr, hv]

end Sys2Proof.Machine
end

