-- ==== Sys2Proof/Laws/Session.lean ====
section
/-! SUPPORT. Runs of commands, word by word. -/

namespace Sys2Proof.Machine

theorem runWords_nil (s : State) : runWords [] s = some (s, []) := rfl

theorem runWords_cons {s t : State} {w : CmdWord} (ws : List CmdWord) (h : execWord w s = .next t) :
    runWords (w :: ws) s = (runWords ws t).map fun r => (r.1, t.rsp.toList ++ r.2) := by
  simp only [runWords, step_present, h]

end Sys2Proof.Machine
end

