-- ==== Sys2Proof/Laws/Frame.lean ====
section
/-! SUPPORT. The host's parts: what issuing one command can lead to, and the key extender's two cases. -/

namespace Sys2Proof.Machine

@[simp] theorem hostBind_ok {α β : Type} (t : State) (a : α) (f : State → α → State × HostResult β) :
    hostBind (t, .ok a) f = f t a := rfl

@[simp] theorem hostBind_failed {α β : Type} (t : State) (e : ErrorKind) (f : State → α → State × HostResult β) :
    hostBind (t, .failed e) f = (t, .failed e) := rfl

@[simp] theorem hostBind_unspecified {α β : Type} (t : State) (f : State → α → State × HostResult β) :
    hostBind (t, .unspecified) f = (t, .unspecified) := rfl

@[simp] theorem hostError_code {α : Type} (k : ErrorKind) : hostError (α := α) k.code = .failed k := by
  simp [hostError, ErrorKind.ofCode_code]

/-- After an `ERR` response the host leaves the registers at their reset values. -/
theorem hostDiscard_eq {α : Type} (t : State) (e : ErrCode) :
    hostDiscard (α := α) t e = (t.clearAll.respond .ack, hostError e) := rfl

theorem hostSession_nil (s : State) : hostSession [] s = (s, .ok []) := rfl

/-- A command answered with `ERR` ends the session. -/
theorem hostSession_error {s t : State} {c : Instr} {e : ErrCode} (rest : List Instr)
    (h : execWord (encode c) s = .next t) (hr : t.rsp = some (.err e)) :
    hostSession (c :: rest) s = (t.clearAll.respond .ack, hostError e) := by
  simp only [hostSession, step_present, h, hr, hostDiscard_eq]

/-- A command answered with anything else lets it go on. -/
theorem hostSession_cons {s t : State} {c : Instr} (rest : List Instr)
    (h : execWord (encode c) s = .next t) (hr : ∀ e, t.rsp ≠ some (.err e)) :
    hostSession (c :: rest) s = hostBind (hostSession rest t) fun u rs => (u, .ok (t.rsp.toList ++ rs)) := by
  simp only [hostSession, step_present, h]

/-- What a session can end in, once: where the run of its commands has no `ERR` among its responses, that run's end and
responses; where it has one, the reset registers and the first one's error. -/
theorem hostSession_of_run {cs : List Instr} {s t : State} {rs : List Rsp} (h : runCmds cs s = some (t, rs)) :
    (firstError rs = none → hostSession cs s = (t, .ok rs)) ∧
      ∀ e, firstError rs = some e → ∃ u : State, hostSession cs s = (u.clearAll.respond .ack, hostError e) := by
  induction cs generalizing s rs with
  | nil =>
    obtain ⟨rfl, rfl⟩ := Prod.mk.inj (Option.some.inj h)
    exact ⟨fun _ => rfl, nofun⟩
  | cons c cs ih =>
    rcases hx : execWord (encode c) s with v | v | v
    · rw [runCmds, List.map_cons, runWords_cons _ hx] at h
      obtain ⟨⟨u, qs⟩, hrun, heq⟩ := Option.map_eq_some_iff.1 h
      obtain ⟨rfl, rfl⟩ := Prod.mk.inj heq
      obtain ⟨none_case, some_case⟩ := ih hrun
      by_cases hr : ∃ e, v.rsp = some (.err e)
      · obtain ⟨e, hr⟩ := hr
        have first : firstError (v.rsp.toList ++ qs) = some e := by rw [hr]; rfl
        refine ⟨fun hn => absurd (first.symm.trans hn) (Option.some_ne_none e), fun e' he => ⟨v, ?_⟩⟩
        rw [hostSession_error cs hx hr, Option.some.inj (first.symm.trans he)]
      · have hr : ∀ e, v.rsp ≠ some (.err e) := fun e he => hr ⟨e, he⟩
        have first : firstError (v.rsp.toList ++ qs) = firstError qs := by
          rcases hv : v.rsp with _ | r
          · rfl
          · cases r <;> first | rfl | exact absurd hv (hr _)
        rw [first, hostSession_cons cs hx hr]
        refine ⟨fun hn => by rw [none_case hn]; rfl, fun e he => ?_⟩
        obtain ⟨u', hu⟩ := some_case e he
        refine ⟨u', ?_⟩
        rw [hu, hostError]
        split <;> rfl
    · simp [runCmds, runWords, step_present, hx] at h
    · simp [runCmds, runWords, step_present, hx] at h

/-- Only an empty key has no extended key. -/
theorem extendKey_nil (n : Nat) : extendKey [] n = none := rfl

theorem extendKey_cons (k : Byte) (ks : List Byte) (n : Nat) :
    ∃ ext, extendKey (k :: ks) n = some ext ∧ ext.length = n := ⟨_, rfl, by simp⟩

end Sys2Proof.Machine
end

