-- ==== Sys2Proof/Laws/PerInstr.lean ====
section
/-! SUPPORT. Families of statements about every command, one lemma per constructor. -/

/-! The word of a command lies in its row of the opcode map (R72). -/

def Sys2Proof.Laws.EncodeInRow.Statement (i : Sys2Proof.Instr) : Prop :=
  Sys2Proof.encode i &&& (Sys2Proof.opcodeRow i.mnemonic).2 = (Sys2Proof.opcodeRow i.mnemonic).1

namespace Sys2Proof.Laws.EncodeInRow

theorem nop : Statement .nop := rfl
theorem crcInit : Statement .crcInit := rfl
theorem crcByte (b : Byte) : Statement (.crcByte b) := by revert b; unfold Statement; decide
theorem crcNib (n : Nibble) : Statement (.crcNib n) := by revert n; unfold Statement; decide
theorem crcRd (k : BitVec 2) : Statement (.crcRd k) := by revert k; unfold Statement; decide
theorem expByte (b : Byte) : Statement (.expByte b) := by revert b; unfold Statement; decide
theorem crcVfy : Statement .crcVfy := rfl
theorem serNib (n : Nibble) : Statement (.serNib n) := by revert n; unfold Statement; decide
theorem desInit : Statement .desInit := rfl
theorem desSym (c : Byte) : Statement (.desSym c) := by revert c; unfold Statement; decide
theorem desEnd : Statement .desEnd := rfl
theorem rst : Statement .rst := rfl

end Sys2Proof.Laws.EncodeInRow

/-! A command's line is well-formed: its operand fits its field by its type (R71, R81). -/

def Sys2Proof.Laws.LineFits.Statement (i : Sys2Proof.Instr) : Prop := i.wellFormed = true

namespace Sys2Proof.Laws.LineFits

theorem nop : Statement .nop := rfl
theorem crcInit : Statement .crcInit := rfl
theorem crcByte (b : Byte) : Statement (.crcByte b) := decide_eq_true b.isLt
theorem crcNib (n : Nibble) : Statement (.crcNib n) := decide_eq_true n.isLt
theorem crcRd (k : BitVec 2) : Statement (.crcRd k) := decide_eq_true k.isLt
theorem expByte (b : Byte) : Statement (.expByte b) := decide_eq_true b.isLt
theorem crcVfy : Statement .crcVfy := rfl
theorem serNib (n : Nibble) : Statement (.serNib n) := decide_eq_true n.isLt
theorem desInit : Statement .desInit := rfl
theorem desSym (c : Byte) : Statement (.desSym c) := decide_eq_true c.isLt
theorem desEnd : Statement .desEnd := rfl
theorem rst : Statement .rst := rfl

end Sys2Proof.Laws.LineFits
end

