-- ==== Sys2Proof/Tests/Slice0.lean ====
section
/-! SUPPORT. Tests of the model, each with its source in the spec, and for every statement with hypotheses a theorem that
shows concrete values meeting them together. -/

namespace Sys2Proof.Tests

open Sys2Proof.Machine

/-- A state in the notation of 95_test_vectors.md: `crc exp expn sh bcnt any ws err`, nothing on the ports. -/
def regs (crc exp : CrcWord) (expn : BitVec 3) (sh : Byte) (bcnt : BitVec 3) (any ws : Bool) (err : ErrCode) : State :=
  ⟨crc, exp, expn, sh, bcnt, any, ws, err, none, []⟩

/-- A state of the CRC unit with the codec unit at reset: `crc exp expn err` (95_test_vectors.md 2.4). -/
def crcRegs (crc exp : CrcWord) (expn : BitVec 3) (err : ErrCode) : State := regs crc exp expn 0 0 false false err

/-- A state of the codec unit with the CRC unit at reset: `sh bcnt any ws` (95_test_vectors.md 2.6). -/
def codecRegs (sh : Byte) (bcnt : BitVec 3) (any ws : Bool) : State := regs 0xFFFFFFFF 0 0 sh bcnt any ws 0

/-- The state with a response on the port. -/
def answering (s : State) (r : Rsp) : State := { s with rsp := some r }

/-- The next state of an outcome. -/
def nextOf (o : Host.Outcome State Fault Refusal) : Option State :=
  match o with
  | .next t => some t
  | _ => none

/-- The responses of a run of words from a state. -/
def answers (ws : List CmdWord) (s : State) : Option (List Rsp) := (runWords ws s).map fun r => r.2

/-- A decoding as plain data. -/
def decoded (w : CmdWord) : Option Instr :=
  match decode w with
  | .ok i => some i
  | .error _ => none

/-! ### Decoding: every command's pattern of R72 written out bit by bit -/

theorem test_decode_nop : decoded 0b000000000000 = some .nop := by decide
theorem test_decode_crcInit : decoded 0b000100000000 = some .crcInit := by decide
theorem test_decode_crcByte : decoded 0b001010100101 = some (.crcByte 0xA5) := by decide
theorem test_decode_crcNib : decoded 0b001100001101 = some (.crcNib 0xD) := by decide
theorem test_decode_crcRd : decoded 0b010000000010 = some (.crcRd 2) := by decide
theorem test_decode_expByte : decoded 0b010110110001 = some (.expByte 0xB1) := by decide
theorem test_decode_crcVfy : decoded 0b011000000000 = some .crcVfy := by decide
theorem test_decode_serNib : decoded 0b011100000110 = some (.serNib 6) := by decide
theorem test_decode_desInit : decoded 0b100000000000 = some .desInit := by decide
theorem test_decode_desSym : decoded 0b100101111000 = some (.desSym 0x78) := by decide
theorem test_decode_desEnd : decoded 0b101000000000 = some .desEnd := by decide
theorem test_decode_rst : decoded 0b111100000000 = some .rst := by decide

/-- 95_test_vectors.md 2.8: each of these words is illegal. -/
theorem test_decode_illegal :
    ([0x001, 0x0FF, 0x101, 0x310, 0x3F0, 0x404, 0x4FF, 0x601, 0x710, 0x801, 0xA01, 0xB00, 0xC12, 0xD00, 0xE55, 0xEFF,
      0xF01, 0xFFF] : List CmdWord).all (fun w => decoded w = none) = true := by decide

/-- 95_test_vectors.md 2.8: their nearest legal neighbours. -/
theorem test_decode_neighbours :
    ([0x000, 0x100, 0x30F, 0x403, 0x600, 0x70F, 0x800, 0xA00, 0xF00] : List CmdWord).map decoded =
      [some .nop, some .crcInit, some (.crcNib 15), some (.crcRd 3), some .crcVfy, some (.serNib 15), some .desInit,
        some .desEnd, some .rst] := by decide

theorem test_tableWord_reads : decodeTableWord 16 0x22A = some (.crcByte 0x2A) := by decide
theorem test_tableWord_refuses_wide : decodeTableWord 16 0x1000 = none := by decide
theorem test_withFetchWord_runs :
    nextOf (step (State.reset.withFetchWord 16 0x22A)) = some (answering (crcRegs 0xF646D9A4 0 0 0) .ack) := by
  decide +kernel

/-! ### Well-formedness: one ill-formed line for each check (R71, R81) -/

theorem test_wf_refuses_missing_operand : AsmLine.wellFormed ⟨.crcByte, none⟩ = false := by decide
theorem test_wf_refuses_operand_of_nop : AsmLine.wellFormed ⟨.nop, some 0⟩ = false := by decide
theorem test_wf_refuses_byte_256 : AsmLine.wellFormed ⟨.desSym, some 256⟩ = false := by decide
theorem test_wf_refuses_nibble_16 : AsmLine.wellFormed ⟨.serNib, some 16⟩ = false := by decide
theorem test_wf_refuses_index_4 : AsmLine.wellFormed ⟨.crcRd, some 4⟩ = false := by decide
theorem test_wf_takes_the_largest :
    AsmLine.wellFormed ⟨.expByte, some 255⟩ = true ∧ AsmLine.wellFormed ⟨.crcNib, some 15⟩ = true ∧
      AsmLine.wellFormed ⟨.crcRd, some 3⟩ = true ∧ AsmLine.wellFormed ⟨.rst, none⟩ = true := by decide

/-- The text of an assembler's answer. -/
def textWord (cs : List Char) : Option (Option CmdWord) :=
  match assembleText cs with
  | .ok w => some w
  | .error _ => none

/-- A line of 95_test_vectors.md P1, with its comment. -/
theorem test_assemble_P1 : textWord "CRC.BYTE 0x2A     ; 22A".toList = some (some 0x22A) := by decide +kernel
theorem test_assemble_decimal : textWord "CRC.RD 3".toList = some (some 0x403) := by decide +kernel
/-- R81: an index above 3 is an error, never truncated. -/
theorem test_assemble_refuses_index_4 : textWord "CRC.RD 4".toList = none := by decide +kernel

/-! ### The commands: 95_test_vectors.md 2.4 to 2.8, one step each -/

theorem test_crcInit : nextOf (exec .crcInit (crcRegs 0x12345678 0xAABBCCDD 4 0)) =
    some (answering (crcRegs 0xFFFFFFFF 0 0 0) .ack) := rfl
theorem test_crcByte : nextOf (exec (.crcByte 0x2A) (crcRegs 0xFFFFFFFF 0 0 0)) =
    some (answering (crcRegs 0xF646D9A4 0 0 0) .ack) := rfl
theorem test_crcByte_zero : nextOf (exec (.crcByte 0x00) (crcRegs 0xFFFFFFFF 0 0 0)) =
    some (answering (crcRegs 0x2DFD1072 0 0 0) .ack) := rfl
theorem test_crcNib_low : nextOf (exec (.crcNib 0xA) (crcRegs 0xFFFFFFFF 0 0 0)) =
    some (answering (crcRegs 0x6494AE0B 0 0 0) .ack) := rfl
theorem test_crcNib_high : nextOf (exec (.crcNib 0x2) (crcRegs 0x6494AE0B 0 0 0)) =
    some (answering (crcRegs 0xF646D9A4 0 0 0) .ack) := rfl
theorem test_crcRd_first : nextOf (exec (.crcRd 0) (crcRegs 0xF646D9A4 0 0 0)) =
    some (answering (crcRegs 0xF646D9A4 0 0 0) (.byte 0x09)) := rfl
theorem test_crcRd_last : nextOf (exec (.crcRd 3) (crcRegs 0xF646D9A4 0 0 0)) =
    some (answering (crcRegs 0xF646D9A4 0 0 0) (.byte 0x5B)) := rfl
theorem test_expByte_shifts : nextOf (exec (.expByte 0x5B) (crcRegs 0xF646D9A4 0x0009B926 3 0)) =
    some (answering (crcRegs 0xF646D9A4 0x09B9265B 4 0) .ack) := rfl
theorem test_expByte_fifth : nextOf (exec (.expByte 0x00) (crcRegs 0xF646D9A4 0x09B9265B 4 0)) =
    some (answering (crcRegs 0xF646D9A4 0x09B9265B 4 7) (.err 7)) := rfl
theorem test_crcVfy_pass : nextOf (exec .crcVfy (crcRegs 0xF646D9A4 0x09B9265B 4 0)) =
    some (answering (crcRegs 0xF646D9A4 0x09B9265B 4 0) .pass) := rfl
theorem test_crcVfy_mismatch : nextOf (exec .crcVfy (crcRegs 0xF646D9A4 0x09B9265A 4 0)) =
    some (answering (crcRegs 0xF646D9A4 0x09B9265A 4 5) (.err 5)) := rfl

/-- 41_serializer.md's example: `TSTS`. -/
theorem test_serNib : nextOf (exec (.serNib 0xA) (crcRegs 0xFFFFFFFF 0 0 0)) =
    some (answering (crcRegs 0xFFFFFFFF 0 0 0) (.sym4 0x09200920)) := rfl
/-- 95_test_vectors.md 2.5: the byte `0x8D` as `708 70D`. -/
theorem test_serByte : answers [0x708, 0x70D] State.reset = some [.sym4 0x09202020, .sym4 0x09092009] := by
  decide +kernel

/-- 42_deserializer.md's example of `DES.INIT`. -/
theorem test_desInit : nextOf (exec .desInit (codecRegs 0x5A 3 true true)) =
    some (answering (codecRegs 0 0 false false) .ack) := rfl
/-- 95_test_vectors.md 2.6, row 14: the stale upper bits of `sh` are not reported. -/
theorem test_desSym_stale : nextOf (exec (.desSym 0x20) (codecRegs 0x53 3 true true)) =
    some (answering (codecRegs 0xA6 4 true true) (.nibh 6)) := rfl
/-- 95_test_vectors.md 2.6, row 18. -/
theorem test_desSym_byte : nextOf (exec (.desSym 0x09) (codecRegs 0x35 7 true true)) =
    some (answering (codecRegs 0x6B 0 true true) (.byte 0x6B)) := rfl
/-- 95_test_vectors.md 2.7: a line feed only. -/
theorem test_desEnd_nothing_accepted : nextOf (exec .desEnd (codecRegs 0 0 true false)) =
    some (answering { codecRegs 0 0 true false with err := 4 } (.err 4)) := rfl
/-- 95_test_vectors.md P5: six bits, then four bits. -/
theorem test_desEnd_P5 :
    answers [0x800, 0x920, 0x909, 0x920, 0x909, 0x920, 0x909, 0xA00] State.reset =
      some [.ack, .ack, .ack, .ack, .nibh 5, .ack, .ack, .err 4] ∧
    answers [0x800, 0x920, 0x909, 0x920, 0x909, 0xA00] State.reset =
      some [.ack, .ack, .ack, .ack, .nibh 5, .err 2] := by decide +kernel

theorem test_nop_in_fault_state : nextOf (exec .nop (crcRegs 0xF646D9A4 0x09B9265A 4 5)) =
    some (answering (crcRegs 0xF646D9A4 0x09B9265A 4 5) (.err 5)) := rfl
/-- 43_system.md's example of `RST`. -/
theorem test_rst : nextOf (exec .rst (crcRegs 0xF646D9A4 0x09B9265A 4 5)) =
    some (answering State.reset .ack) := rfl
/-- 95_test_vectors.md 2.8: the fault state answers every word but `0xF00` with the code. -/
theorem test_fault_state : answers [0x000, 0x22A, 0x70A, 0xB00, 0xF01, 0xF00] (crcRegs 0 0 0 5) =
    some [.err 5, .err 5, .err 5, .err 5, .err 5, .ack] := by decide +kernel

/-- The spec's vectors of 2.1: the arithmetic at its corners. -/
theorem test_upd4 : upd4 sbx 0x12345678 0x9 = 0x1C945503 ∧ upd4 sbx 0xFFFFFFFF 0xF = 0x0FFFFFFF := by decide +kernel
theorem test_upd8 : upd8 sbx 0x12345678 0x9A = 0x4E16B702 ∧ upd8 sbx 0 0xFF = 0x2D02EF8D := by decide +kernel
theorem test_step1 : step1 sbx 0x80000000 = 0x40000000 ∧ step1 sbx 0xFFFFFFFF = 0x92477CDF := by decide +kernel

/-- A salt of eight zero bytes, of the scenario of 95_test_vectors.md 1.3. -/
def zeroSalt : Vector Byte 8 := Vector.replicate 8 0

/-- 95_test_vectors.md 1.3: the encrypted payload of the key `k` and the text `A`. -/
theorem test_encryptedPayload : encryptedPayload [0x6B] zeroSalt.toList [0x41] =
    some [0x2A, 0x6B, 0x6B, 0x6B, 0x6B, 0x6B, 0x6B, 0x6B, 0x6B] := by decide +kernel

/-- 95_test_vectors.md P4: "the first symbol of the stream is changed" from `S` to `T`. -/
theorem test_flipSymbol : flipSymbol [0x20, 0x20, 0x09, 0x20] 0 = [0x09, 0x20, 0x09, 0x20] := by decide

/-- R215: after an `ERR` response the host issues `RST`, and the session gives nothing. -/
theorem test_hostSession_discards :
    hostSession [.crcVfy, .nop] State.reset = (answering State.reset .ack, .failed .sliceError) := rfl

/-! ### Witnesses: the hypotheses of each statement hold together somewhere, for each of its clauses -/

/-- A fault-free machine in the middle of both sessions. -/
def busy : State := regs 0xF646D9A4 0x0009B926 3 0x15 7 true true 0
/-- The same with four checksum bytes, the right ones. -/
def loaded : State := regs 0xF646D9A4 0x09B9265B 4 0x15 4 true true 0
/-- The same with the wrong ones. -/
def misloaded : State := { loaded with exp := 0x09B9265A }
/-- A machine in the fault state. -/
def faulted : State := { misloaded with err := 5, rsp := some (.err 5) }

theorem test_witness_OperandFields :
    (0 : BitVec 4) = 0 ∧ (1 : BitVec 4) ≠ 0 ∧ (0 : BitVec 6) = 0 ∧ (1 : BitVec 6) ≠ 0 ∧ (0 : Byte) = 0 ∧
      (0xFF : Byte) ≠ 0 := by decide

theorem test_witness_DecodeEncodeAgree : decode 0x22A = .ok (.crcByte 0x2A) ∧ decode 0xF00 = .ok .rst := ⟨rfl, rfl⟩

theorem test_witness_IllegalWords :
    (∃ e, decode 0xB00 = .error e) ∧ (∃ e, decode 0x001 = .error e) ∧ (∃ e, decode 0x310 = .error e) ∧
      (∃ e, decode 0x404 = .error e) ∧ busy.err = 0 ∧ faulted.err ≠ 0 :=
  ⟨⟨_, rfl⟩, ⟨_, rfl⟩, ⟨_, rfl⟩, ⟨_, rfl⟩, by decide, by decide⟩

theorem test_witness_PseudoCommands :
    (∀ ch ∈ (['S', 'x', 'T', '\x7f'] : List Char), ch.toNat < 128) ∧ (∀ ch ∈ ([] : List Char), ch.toNat < 128) ∧
      exec .nop busy = .next (answering busy .ack) :=
  ⟨by simp, nofun, rfl⟩

theorem test_witness_StepRunsDecoded :
    (busy.present 0x22A).inputs = ⟨false, true, 0x22A⟩ :: [] ∧ decode 0x22A = .ok (.crcByte 0x2A) := ⟨rfl, rfl⟩

theorem test_witness_ClockEdges :
    ({ busy with inputs := [⟨true, true, 0x22A⟩] } : State).inputs = ⟨true, true, 0x22A⟩ :: [] ∧
    ({ busy with inputs := [⟨false, true, 0x22A⟩] } : State).inputs = ⟨false, true, 0x22A⟩ :: [] ∧
    ({ busy with inputs := [⟨false, false, 0x22A⟩] } : State).inputs = ⟨false, false, 0x22A⟩ :: [] := by decide

theorem test_witness_ResetPort :
    ({ faulted with inputs := [⟨true, true, 0x22A⟩] } : State).inputs = ⟨true, true, 0x22A⟩ :: [] := rfl

theorem test_witness_ResetState :
    ({ faulted with inputs := [⟨true, false, 0⟩] } : State).inputs = ⟨true, false, 0⟩ :: [] ∧ busy.err = 0 := by decide

theorem test_witness_AnyFlag :
    busy.err = 0 ∧
    (exec .desEnd { busy with bcnt := 0 } = .next (answering { busy with sh := 0, bcnt := 0, any := false, ws := false } .pass)) ∧
    (exec (.desSym 0x78) State.reset = .next (answering { State.reset with any := true } .ack) ∧
      (answering { State.reset with any := true } .ack).any ≠ State.reset.any) ∧
    Instr.nop ≠ .desEnd ∧ exec .nop busy = .next (answering busy .ack) ∧
    State.reset.err = 0 ∧ State.reset.any = false :=
  ⟨rfl, rfl, ⟨rfl, nofun⟩, nofun, rfl, rfl, rfl⟩

theorem test_witness_WsFlag :
    busy.err = 0 ∧
    exec .desEnd { busy with bcnt := 0 } = .next (answering { busy with sh := 0, bcnt := 0, any := false, ws := false } .pass) ∧
    (exec (.desSym 0x09) State.reset =
        .next (answering { State.reset with sh := 1, bcnt := 1, any := true, ws := true } .ack) ∧
      (answering { State.reset with sh := 1, bcnt := 1, any := true, ws := true } .ack).ws ≠ State.reset.ws) ∧
    Instr.nop ≠ .desEnd ∧ exec .nop busy = .next (answering busy .ack) ∧
    ((codecRegs 0 0 true false).err = 0 ∧ (codecRegs 0 0 true false).any = true ∧ (codecRegs 0 0 true false).ws = false) ∧
    (List.replicate 8 (0x09 : Byte)).length = 8 ∧ ∀ c ∈ List.replicate 8 (0x09 : Byte), c = 0x20 ∨ c = 0x09 :=
  ⟨rfl, rfl, ⟨rfl, nofun⟩, nofun, rfl, ⟨rfl, rfl, rfl⟩, rfl, fun _ h => .inr (List.eq_of_mem_replicate h)⟩

theorem test_witness_RegisterWriters :
    (exec (.crcByte 0x2A) State.reset = .next (answering (crcRegs 0xF646D9A4 0 0 0) .ack) ∧
      (answering (crcRegs 0xF646D9A4 0 0 0) .ack).crc ≠ State.reset.crc) ∧
    (exec (.expByte 9) State.reset = .next (answering (crcRegs 0xFFFFFFFF 9 1 0) .ack) ∧
      (answering (crcRegs 0xFFFFFFFF 9 1 0) .ack).exp ≠ State.reset.exp) ∧
    (exec (.desSym 0x09) State.reset = .next (answering (codecRegs 1 1 true true) .ack) ∧
      (answering (codecRegs 1 1 true true) .ack).sh ≠ State.reset.sh) ∧
    (exec .crcVfy State.reset = .next (answering (crcRegs 0xFFFFFFFF 0 0 7) (.err 7)) ∧
      (answering (crcRegs 0xFFFFFFFF 0 0 7) (.err 7)).err ≠ State.reset.err) := by
  refine ⟨⟨?_, by decide⟩, ⟨rfl, by decide⟩, ⟨rfl, by decide⟩, rfl, by decide⟩
  rfl

theorem test_witness_ErrRegister :
    (step (State.reset.present 0x600) = .next (answering (crcRegs 0xFFFFFFFF 0 0 7) (.err 7)) ∧
      (answering (crcRegs 0xFFFFFFFF 0 0 7) (.err 7)).err ≠ (State.reset.present 0x600).err) ∧
    (step (faulted.present 0xF00) = .next (answering State.reset .ack) ∧
      (answering State.reset .ack).err ≠ (faulted.present 0xF00).err) ∧
    (State.reset.err = 0 ∧ (∀ w ∈ ([0x600, 0xB00] : List CmdWord), w ≠ 0xF00) ∧
      runWords [0x600, 0xB00] State.reset = some (answering (crcRegs 0xFFFFFFFF 0 0 7) (.err 7), [.err 7, .err 7])) :=
  ⟨⟨rfl, by decide⟩, ⟨rfl, by decide⟩, rfl, by simp, rfl⟩

theorem test_witness_StepOrder :
    (0xF00 : CmdWord) = 0xF00 ∧ ((0xF01 : CmdWord) ≠ 0xF00 ∧ faulted.err ≠ 0) ∧
    ((0xF01 : CmdWord) ≠ 0xF00 ∧ busy.err = 0 ∧ decode 0xF01 = .error (.mustBeZero 0xF 1)) ∧
    ((0x000 : CmdWord) ≠ 0xF00 ∧ busy.err = 0 ∧ decode 0x000 = .ok .nop) :=
  ⟨rfl, by decide, ⟨by decide, rfl, rfl⟩, by decide, rfl, rfl⟩

theorem test_witness_FirstErrorWins :
    busy.err = 0 ∧
    ((∀ v ∈ ([0xB00, 0x22A] : List CmdWord), v ≠ 0xF00) ∧ State.reset.err = 0 ∧
      step (State.reset.present 0x600) = .next (answering (crcRegs 0xFFFFFFFF 0 0 7) (.err 7)) ∧
      (answering (crcRegs 0xFFFFFFFF 0 0 7) (.err 7)).err ≠ 0 ∧
      runWords [0xB00, 0x22A] (answering (crcRegs 0xFFFFFFFF 0 0 7) (.err 7)) =
        some (answering (crcRegs 0xFFFFFFFF 0 0 7) (.err 7), [.err 7, .err 7])) ∧
    ({ faulted with inputs := [⟨true, true, 0x22A⟩] } : State).inputs = ⟨true, true, 0x22A⟩ :: [] :=
  ⟨rfl, ⟨by simp, rfl, rfl, by decide, rfl⟩, rfl⟩

theorem test_witness_FaultEntry :
    step (misloaded.present 0x600) = .next faulted ∧ faulted.err ≠ misloaded.err ∧ faulted.err ≠ 0 :=
  ⟨rfl, by decide, by decide⟩

theorem test_witness_WhoRaisesWhat :
    (misloaded.err = 0 ∧ exec .crcVfy misloaded = .next faulted ∧ faulted.err ≠ 0) ∧
    (loaded.err = 0 ∧ exec (.expByte 0) loaded = .next (answering { loaded with err := 7 } (.err 7)) ∧
      (answering { loaded with err := 7 } (.err 7)).err ≠ 0) ∧
    (loaded.err = 0 ∧ exec .desEnd loaded = .next (answering { loaded with err := 2 } (.err 2)) ∧
      (answering { loaded with err := 2 } (.err 2)).err ≠ 0) ∧
    decode 0xB00 = .error (.reservedOp 0xB) ∧
    (busy.err = 0 ∧ step (busy.present 0xB00) = .next (answering { busy with err := 15 } (.err 15)) ∧
      (answering { busy with err := 15 } (.err 15)).err = 0xF) :=
  ⟨⟨rfl, rfl, by decide⟩, ⟨rfl, rfl, by decide⟩, ⟨rfl, rfl, by decide⟩, rfl, rfl, rfl, rfl⟩

theorem test_witness_WayOutOfFault :
    (faulted.err ≠ 0 ∧ (faulted.present 0xF00).inputs = ⟨false, true, 0xF00⟩ :: [] ∧
      step (faulted.present 0xF00) = .next (answering State.reset .ack)) ∧
    ((faulted.present 0x100).inputs = ⟨false, true, 0x100⟩ :: [] ∧ step (faulted.present 0x100) = .next faulted) ∧
    (exec .rst faulted = .next (answering State.reset .ack) ∧ decode 0xB00 = .error (.reservedOp 0xB)) :=
  ⟨⟨by decide, rfl, rfl⟩, ⟨rfl, rfl⟩, rfl, rfl⟩

theorem test_witness_FaultLine :
    (faulted.faultO = true ∧ step (faulted.present 0xF00) = .next (answering State.reset .ack) ∧
      (answering State.reset .ack).faultO = false) ∧
    step (misloaded.present 0x600) = .next faulted := ⟨⟨rfl, rfl, rfl⟩, rfl⟩

theorem test_witness_UnitsIndependent :
    (Instr.isCrc .crcVfy = true ∧ exec .crcVfy loaded = .next (answering loaded .pass) ∧
      exec .crcVfy (crcRegs 0xF646D9A4 0x09B9265B 4 0) = .next (answering (crcRegs 0xF646D9A4 0x09B9265B 4 0) .pass) ∧
      SameCrc loaded (crcRegs 0xF646D9A4 0x09B9265B 4 0) ∧ (crcRegs 0xF646D9A4 0x09B9265B 4 0).err = loaded.err) ∧
    (Instr.isCodec .desInit = true ∧ exec .desInit (codecRegs 0x15 4 true true) = .next (answering State.reset .ack) ∧
      exec .desInit loaded = .next (answering (crcRegs 0xF646D9A4 0x09B9265B 4 0) .ack) ∧
      SameCodec loaded (codecRegs 0x15 4 true true) ∧ (codecRegs 0x15 4 true true).err = loaded.err) ∧
    (exec (.serNib 0) loaded = .next (answering loaded (.sym4 0x20202020)) ∧
      exec (.serNib 0) State.reset = .next (answering State.reset (.sym4 0x20202020)) ∧ loaded.err = 0 ∧
      State.reset.err = loaded.err) ∧
    (Instr.nop ≠ .rst ∧ faulted.err ≠ 0 ∧ exec .nop faulted = .next faulted) :=
  ⟨⟨rfl, rfl, rfl, ⟨rfl, rfl, rfl⟩, rfl⟩, ⟨rfl, rfl, rfl, ⟨rfl, rfl, rfl, rfl⟩, rfl⟩, ⟨rfl, rfl, rfl, rfl⟩,
    by decide, by decide, rfl⟩

theorem test_witness_InterleavingCommutes :
    Instr.isCrc .crcInit = true ∧ Instr.isCodec (.desSym 0x09) = true ∧ State.reset.err = 0 ∧
    exec .crcInit State.reset = .next (answering State.reset .ack) ∧
    exec (.desSym 0x09) State.reset = .next (answering (codecRegs 1 1 true true) .ack) ∧
    (answering State.reset .ack).err = 0 ∧ (answering (codecRegs 1 1 true true) .ack).err = 0 :=
  ⟨rfl, rfl, rfl, rfl, rfl, rfl, rfl⟩

theorem inv_loaded : Inv loaded where
  expn_le := by decide
  exp_lt := by decide
  ws_any := by decide
  unaccepted := by decide
  err_code := by decide
  rsp_err := by decide

/-- The invariant holds of a state in the middle of both sessions, which a step leads on. -/
theorem test_witness_StepKeepsInv :
    Inv loaded ∧ step loaded = .next loaded ∧
      step { loaded with inputs := [.command 0x600] } = .next (answering loaded .pass) :=
  ⟨inv_loaded, rfl, rfl⟩

theorem test_witness_ReachableRegisters : Reachable (answering (crcRegs 0xFFFFFFFF 0 0 7) (.err 7)) :=
  .step (.reset [.command 0x600]) rfl

/-- The polynomial's bit 31 is set in the parameter set of D1. -/
theorem test_witness_BitStepsLinearBijective : sbx.crcPolyReflected.getLsbD 31 = true := by decide

theorem test_witness_NibbleSerialIsByteSerial : busy.err = 0 := rfl

theorem test_witness_ZeroByteCounts : (0xFFFFFFFF : CrcWord) ≠ 0 ∧ (1 : CrcWord) ≠ 0 := by decide

/-- Both ends of the bit index. -/
theorem test_witness_SingleBitErrorsDetected :
    sbx.crcPolyReflected.getLsbD 31 = true ∧ (0 : Nat) < 8 ∧ (7 : Nat) < 8 := by decide

theorem test_witness_CrcInitStarts : busy.err = 0 ∧ (1 : Byte) ≠ 0 ∧ (0xFF : Byte) ≠ 0 := by decide

theorem test_witness_CrcByteConsumes : busy.err = 0 ∧ State.reset.err = 0 ∧ State.reset.crc = 0xFFFFFFFF := by decide

theorem test_witness_CrcNibConsumes :
    busy.err = 0 ∧ (1 : BitVec 4) ≠ 0 ∧ (0xF : BitVec 4) ≠ 0 ∧ State.reset.err = 0 ∧ State.reset.crc = 0xFFFFFFFF := by
  decide

theorem test_witness_CrcRdReads :
    State.reset.err = 0 ∧ (1 : BitVec 6) ≠ 0 ∧ busy.err = 0 ∧ busy.crc = 0xF646D9A4 := by decide

/-- The values of `expn` where the clauses meet, 3 and 4, and 5, which no run reaches. -/
theorem test_witness_ExpByteLoads :
    (busy.err = 0 ∧ busy.expn ≠ 4) ∧ (({ busy with expn := 5 } : State).err = 0 ∧ ({ busy with expn := 5 } : State).expn ≠ 4) ∧
    (loaded.err = 0 ∧ loaded.expn = 4) ∧ (State.reset.err = 0 ∧ State.reset.exp = 0 ∧ State.reset.expn = 0) := by decide

theorem test_witness_CrcVfyCompares :
    (busy.err = 0 ∧ busy.expn ≠ 4) ∧
    (misloaded.err = 0 ∧ misloaded.expn = 4 ∧ misloaded.crc ^^^ 0xFFFFFFFF ≠ misloaded.exp) ∧
    (loaded.err = 0 ∧ loaded.expn = 4 ∧ loaded.crc ^^^ 0xFFFFFFFF = loaded.exp) ∧ (1 : Byte) ≠ 0 := by decide

/-- A session with codec commands between, four loads among the bytes, and no fault (R131). -/
theorem test_witness_SessionResult :
    State.reset.err = 0 ∧ State.reset.crc = 0xFFFFFFFF ∧ State.reset.exp = 0 ∧ State.reset.expn = 0 ∧
    (∀ c ∈ ([.expByte 9, .expByte 0xB9, .serNib 2, .crcByte 0x2A, .expByte 0x26, .expByte 0x5B] : List Instr),
      c ≠ .crcInit ∧ c ≠ .rst ∧ ∀ n, c ≠ .crcNib n) ∧
    runCmds [.expByte 9, .expByte 0xB9, .serNib 2, .crcByte 0x2A, .expByte 0x26, .expByte 0x5B] State.reset =
      some (answering (crcRegs 0xF646D9A4 0x09B9265B 4 0) .ack,
        [.ack, .ack, .sym4 0x20200920, .ack, .ack, .ack]) ∧
    (answering (crcRegs 0xF646D9A4 0x09B9265B 4 0) .ack).err = 0 := by
  refine ⟨rfl, rfl, rfl, rfl, ?_, rfl, rfl⟩
  simp

/-- Both ends of the bit index. -/
theorem test_witness_TamperDetected : busy.err = 0 ∧ (0 : Nat) < 8 ∧ (7 : Nat) < 8 := by decide

theorem test_witness_SerNibExpands : busy.err = 0 ∧ (1 : BitVec 4) ≠ 0 := by decide

theorem test_witness_SerializerLength : busy.err = 0 ∧ State.reset.err = 0 := by decide

theorem test_witness_DesInitStarts : busy.err = 0 ∧ (1 : Byte) ≠ 0 := by decide

/-- An accepted octet of each kind and a dropped one; `bcnt` at 3 and at 7 is where a report is made. -/
theorem test_witness_DesSymPacks :
    (busy.err = 0 ∧ busy.bcnt = 7 ∧ ((0x20 : Byte) = 0x20 ∨ (0x20 : Byte) = 0x09)) ∧
    ((codecRegs 0x53 3 true true).err = 0 ∧ ((0x09 : Byte) = 0x20 ∨ (0x09 : Byte) = 0x09)) ∧
    (busy.err = 0 ∧ (0x0A : Byte) ≠ 0x20 ∧ (0x0A : Byte) ≠ 0x09) := by decide

theorem test_witness_DesSymPhases : busy.err = 0 ∧ State.reset.err = 0 := by decide

/-- Each test of `DES.END` at the values where the tests meet: `bcnt` 1, 7, 4 and 0. -/
theorem test_witness_DesEndTests :
    (State.reset.err = 0 ∧ State.reset.any = false) ∧
    ((codecRegs 0 0 true false).err = 0 ∧ (codecRegs 0 0 true false).any = true ∧ (codecRegs 0 0 true false).ws = false) ∧
    (busy.err = 0 ∧ busy.any = true ∧ busy.ws = true ∧ busy.bcnt.toNat % 4 ≠ 0) ∧
    ((codecRegs 1 1 true true).err = 0 ∧ (codecRegs 1 1 true true).any = true ∧ (codecRegs 1 1 true true).ws = true ∧
      (codecRegs 1 1 true true).bcnt.toNat % 4 ≠ 0) ∧
    (loaded.err = 0 ∧ loaded.any = true ∧ loaded.ws = true ∧ loaded.bcnt = 4) ∧
    ((codecRegs 0x55 0 true true).err = 0 ∧ (codecRegs 0x55 0 true true).any = true ∧
      (codecRegs 0x55 0 true true).ws = true ∧ (codecRegs 0x55 0 true true).bcnt = 0) ∧ (1 : Byte) ≠ 0 := by decide

/-- The five kinds of input: empty, all dropped, off a nibble, an odd number of nibbles, whole bytes. -/
theorem test_witness_DeserializerAgreesWithBatch :
    busy.err = 0 ∧
    (([0x0A] : List Byte) ≠ [] ∧ (([0x0A] : List Byte).filter fun o => o = 0x20 || o = 0x09).length = 0) ∧
    (([0x09] : List Byte).filter fun o => o = 0x20 || o = 0x09).length % 4 ≠ 0 ∧
    ((List.replicate 4 (0x20 : Byte)).filter fun o => o = 0x20 || o = 0x09).length % 8 = 4 ∧
    (0 < ((List.replicate 8 (0x20 : Byte)).filter fun o => o = 0x20 || o = 0x09).length ∧
      ((List.replicate 8 (0x20 : Byte)).filter fun o => o = 0x20 || o = 0x09).length % 8 = 0 ∧
      0 < ((List.replicate 8 (0x20 : Byte)).filter fun o => o = 0x20 || o = 0x09).length / 8 ∧ (0 : Nat) < 8 ∧
      (7 : Nat) < 8) := by decide

theorem test_witness_CodecRoundTrip : busy.err = 0 ∧ State.reset.err = 0 ∧ ([0x2A] : List Byte) ≠ [] := by decide

theorem test_witness_NopDoesNothing :
    busy.err = 0 ∧ faulted.err ≠ 0 ∧ (1 : Byte) ≠ 0 ∧
    ({ busy with inputs := [⟨false, false, 0⟩] } : State).inputs = ⟨false, false, 0⟩ :: [] := by decide

theorem test_witness_RstResets : (1 : Byte) ≠ 0 ∧ (0xFF : Byte) ≠ 0 ∧ faulted.err ≠ 0 := by decide

/-- The scenario of 95_test_vectors.md 1.3; the plaintext may be empty too. -/
theorem test_witness_FrameRoundTrip : ([0x6B] : List Byte) ≠ [] ∧ State.reset.err = 0 ∧ busy.err = 0 := by decide

theorem test_witness_WrongKeyUndetected :
    ([0x6B] : List Byte) ≠ [] ∧ ([0x6C] : List Byte) ≠ [] ∧ State.reset.err = 0 ∧ busy.err = 0 := by decide

/-- The inputs of the six tests: empty, nothing accepted, off a nibble, an odd number of nibbles, and one and twelve bytes,
the ends of the range that is too short. -/
theorem test_witness_HostErrors :
    ([0x6B] : List Byte) ≠ [] ∧ State.reset.err = 0 ∧
    (([0x0A] : List Byte) ≠ [] ∧ (([0x0A] : List Byte).filter fun o => o = 0x20 || o = 0x09).length = 0) ∧
    (([0x09] : List Byte).filter fun o => o = 0x20 || o = 0x09).length % 4 ≠ 0 ∧
    ((List.replicate 4 (0x20 : Byte)).filter fun o => o = 0x20 || o = 0x09).length % 8 = 4 ∧
    ((List.replicate 8 (0x20 : Byte)).filter fun o => o = 0x20 || o = 0x09).length = 8 ∧
    ((List.replicate 96 (0x20 : Byte)).filter fun o => o = 0x20 || o = 0x09).length = 96 :=
  ⟨by decide, by decide, by decide, by decide, by decide, rfl, rfl⟩

/-- The first symbol of the payload (P4 of 95_test_vectors.md) and the last one of the shortest payload. -/
theorem test_witness_HostTamperDetected :
    ([0x6B] : List Byte) ≠ [] ∧ State.reset.err = 0 ∧ busy.err = 0 ∧
      0 < 8 * (([0x41] : List Byte).length + 8) ∧ 63 < 8 * (([] : List Byte).length + 8) := by decide

theorem test_witness_HostResetsAfterError :
    ([0x6B] : List Byte) ≠ [] ∧ faulted.err = ErrorKind.integrityError.code := by decide

end Sys2Proof.Tests
end

section
/-! SUPPORT. The decoder and the encoder are each other's inverse (R72), so that `RST` has the one word `0xF00`. -/

namespace Sys2Proof

theorem opField_append (op : BitVec 4) (arg : Byte) : opField (op ++ arg) = op :=
  BitVec.extractLsb'_append_eq_left

theorem argField_append (op : BitVec 4) (arg : Byte) : argField (op ++ arg) = arg :=
  BitVec.extractLsb'_append_eq_right

/-- A word is its two fields (R70). -/
theorem opField_append_argField (w : CmdWord) : opField w ++ argField w = w := by
  simp only [opField, argField]
  rw [BitVec.extractLsb'_append_extractLsb'_eq_extractLsb' (by rfl)]
  simp

theorem decode_encode (i : Instr) : decode (encode i) = .ok i := by
  cases i with
  | crcByte b | expByte b | desSym b => simp [decode, encode, opField_append, argField_append]
  | crcNib n | serNib n => revert n; decide
  | crcRd k => revert k; decide
  | nop | crcInit | crcVfy | desInit | desEnd | rst => rfl

/-- What a command without operand has for `arg`. -/
theorem decodeNone_eq_ok {w : CmdWord} {i j : Instr} (h : decodeNone w i = .ok j) : argField w = 0 ∧ i = j := by
  unfold decodeNone at h
  split at h
  · exact ⟨‹_›, Except.ok.inj h⟩
  · cases h

/-- What a command with a nibble operand has for `arg`. -/
theorem decodeNibble_eq_ok {w : CmdWord} {mk : Nibble → Instr} {j : Instr} (h : decodeNibble w mk = .ok j) :
    ∃ n, argField w = 0#4 ++ n ∧ mk n = j := by
  unfold decodeNibble at h
  split at h
  case isTrue hz =>
    refine ⟨_, ?_, Except.ok.inj h⟩
    rw [← show _ = 0#4 from hz, BitVec.extractLsb'_append_extractLsb'_eq_extractLsb' (by rfl)]
    simp
  case isFalse => cases h

/-- What a command with an index operand has for `arg`. -/
theorem decodeIndex_eq_ok {w : CmdWord} {mk : BitVec 2 → Instr} {j : Instr} (h : decodeIndex w mk = .ok j) :
    ∃ k, argField w = 0#6 ++ k ∧ mk k = j := by
  unfold decodeIndex at h
  split at h
  case isTrue hz =>
    refine ⟨_, ?_, Except.ok.inj h⟩
    rw [← show _ = 0#6 from hz, BitVec.extractLsb'_append_extractLsb'_eq_extractLsb' (by rfl)]
    simp
  case isFalse => cases h

theorem encode_of_decode {w : CmdWord} {i : Instr} (h : decode w = .ok i) : encode i = w := by
  rw [← opField_append_argField w]
  unfold decode at h
  split at h <;> rename_i hop
  case h_1 | h_2 | h_7 | h_9 | h_11 | h_12 =>
    obtain ⟨harg, rfl⟩ := decodeNone_eq_ok h
    rw [hop, harg]; rfl
  case h_4 | h_8 =>
    obtain ⟨n, harg, rfl⟩ := decodeNibble_eq_ok h
    rw [hop, harg]; exact BitVec.append_assoc
  case h_5 =>
    obtain ⟨k, harg, rfl⟩ := decodeIndex_eq_ok h
    rw [hop, harg]; exact BitVec.append_assoc
  case h_3 | h_6 | h_10 => cases h; rw [hop]; rfl
  case h_13 => cases h

theorem decode_eq_rst_iff (w : CmdWord) : decode w = .ok .rst ↔ w = 0xF00 :=
  ⟨fun h => (encode_of_decode h).symm, fun h => h ▸ rfl⟩

end Sys2Proof
end

section
/-! SUPPORT. Everything a command can do, once: the relation `Runs` lists the outcomes of `exec` one by one, under the
conditions in which each is taken, and `exec_eq_next_iff` ties it to `exec`. Proofs about all commands go through its
cases. -/

namespace Sys2Proof.Machine

/-- `Runs i s t`: the command `i` takes the machine from `s` to `t`. One constructor for `RST`, one for the fault state,
and one for each branch of a command's meaning where `err = 0` (R240). -/
inductive Runs : Instr → State → State → Prop
  | rst (s) : Runs .rst s (s.clearAll.respond .ack)
  | faulted {i s} (hi : i ≠ .rst) (h : s.err ≠ 0) : Runs i s (s.respond (.err s.err))
  | nop {s} (h : s.err = 0) : Runs .nop s (s.respond .ack)
  | crcInit {s} (h : s.err = 0) : Runs .crcInit s (s.startCrc.respond .ack)
  | crcByte {s} (b) (h : s.err = 0) : Runs (.crcByte b) s ((s.setCrc (upd8 sbx s.crc b)).respond .ack)
  | crcNib {s} (n) (h : s.err = 0) : Runs (.crcNib n) s ((s.setCrc (upd4 sbx s.crc n)).respond .ack)
  | crcRd {s} (k) (h : s.err = 0) : Runs (.crcRd k) s (s.respond (.byte (checksumByte (checksum sbx s.crc) k)))
  | expByteFifth {s} (b) (h : s.err = 0) (hn : s.expn = 4) : Runs (.expByte b) s (s.raise .sliceError)
  | expByte {s} (b) (h : s.err = 0) (hn : s.expn ≠ 4) : Runs (.expByte b) s ((s.loadExp b).respond .ack)
  | crcVfyFails {s e} (h : s.err = 0) (he : s.verifyError = some e) : Runs .crcVfy s (s.raise e)
  | crcVfyPasses {s} (h : s.err = 0) (he : s.verifyError = none) : Runs .crcVfy s (s.respond .pass)
  | serNib {s} (n) (h : s.err = 0) : Runs (.serNib n) s (s.respond (.sym4 (sym4 sbx n)))
  | desInit {s} (h : s.err = 0) : Runs .desInit s (s.clearCodec.respond .ack)
  | desSymAccepted {s c} (h : s.err = 0) (hc : accepted sbx c = true) : Runs (.desSym c) s (s.accept (symbolBit sbx c))
  | desSymDropped {s c} (h : s.err = 0) (hc : accepted sbx c = false) : Runs (.desSym c) s (s.noteOctet.respond .ack)
  | desEndFails {s e} (h : s.err = 0) (he : s.streamError = some e) : Runs .desEnd s (s.raise e)
  | desEndPasses {s} (h : s.err = 0) (he : s.streamError = none) : Runs .desEnd s (s.clearCodec.respond .pass)

variable {i : Instr} {s t : State}

/-- In the fault state every command but `RST` answers the error and does nothing else (R240). -/
theorem exec_of_faulted (hi : i ≠ .rst) (h : s.err ≠ 0) : exec i s = .next (s.respond (.err s.err)) := by
  have held (t : State) : Host.Outcome.next (φ := Fault) (ρ := Refusal) (s.unlessFaulted t) =
      .next (s.respond (.err s.err)) := congrArg _ (State.unlessFaulted_of_faulted t h)
  cases i with
  | rst => exact absurd rfl hi
  | _ => exact held _

theorem Runs.exec_eq (h : Runs i s t) : exec i s = .next t := by
  cases h with
  | rst => rfl
  | faulted hi h => exact exec_of_faulted hi h
  | nop h | crcInit h | crcByte _ h | crcNib _ h | crcRd _ h | serNib _ h | desInit h =>
    exact congrArg _ (State.unlessFaulted_of_faultFree _ h)
  | expByteFifth b h hn | expByte b h hn =>
    simp only [exec, execExpByte, State.unlessFaulted_of_faultFree _ h, hn, if_true, if_false]
  | crcVfyFails h he | crcVfyPasses h he => simp only [exec, execCrcVfy, State.unlessFaulted_of_faultFree _ h, he]
  | desSymAccepted h hc | desSymDropped h hc =>
    simp [exec, execDesSym, State.unlessFaulted_of_faultFree _ h, hc]
  | desEndFails h he | desEndPasses h he => simp only [exec, execDesEnd, State.unlessFaulted_of_faultFree _ h, he]

/-- Every command from every state has an outcome. -/
theorem exists_runs (i : Instr) (s : State) : ∃ t, Runs i s t := by
  by_cases hi : i = .rst
  · exact ⟨_, hi ▸ Runs.rst s⟩
  by_cases h : s.err = 0
  · cases i with
    | rst => exact absurd rfl hi
    | nop => exact ⟨_, .nop h⟩
    | crcInit => exact ⟨_, .crcInit h⟩
    | crcByte b => exact ⟨_, .crcByte b h⟩
    | crcNib n => exact ⟨_, .crcNib n h⟩
    | crcRd k => exact ⟨_, .crcRd k h⟩
    | expByte b => exact (em (s.expn = 4)).elim (⟨_, .expByteFifth b h ·⟩) (⟨_, .expByte b h ·⟩)
    | crcVfy =>
      cases he : s.verifyError with
      | some e => exact ⟨_, .crcVfyFails h he⟩
      | none => exact ⟨_, .crcVfyPasses h he⟩
    | serNib n => exact ⟨_, .serNib n h⟩
    | desInit => exact ⟨_, .desInit h⟩
    | desSym c =>
      cases hc : accepted sbx c with
      | true => exact ⟨_, .desSymAccepted h hc⟩
      | false => exact ⟨_, .desSymDropped h hc⟩
    | desEnd =>
      cases he : s.streamError with
      | some e => exact ⟨_, .desEndFails h he⟩
      | none => exact ⟨_, .desEndPasses h he⟩
  · exact ⟨_, .faulted hi h⟩

theorem exec_eq_next_iff : exec i s = .next t ↔ Runs i s t := by
  refine ⟨fun h => ?_, Runs.exec_eq⟩
  obtain ⟨u, hu⟩ := exists_runs i s
  cases hu.exec_eq.symm.trans h
  exact hu

/-- What a command can do to `err`, and how its response tells (R236, R240): `RST` clears it, in the fault state it
stays and is answered, and from 0 it is either raised or left at 0, with an `ERR` response in the first case only. -/
theorem Runs.err_cases (h : Runs i s t) :
    (i = .rst ∧ t.err = 0 ∧ t.rsp = some .ack) ∨
      (i ≠ .rst ∧ s.err ≠ 0 ∧ t = s.respond (.err s.err)) ∨
      (i ≠ .rst ∧ s.err = 0 ∧ ∃ e, t = s.raise e) ∨
      (i ≠ .rst ∧ s.err = 0 ∧ t.err = 0 ∧ ∃ r, t.rsp = some r ∧ ∀ e, r ≠ .err e) := by
  cases h with
  | rst => exact .inl ⟨rfl, rfl, rfl⟩
  | faulted hi h => exact .inr (.inl ⟨hi, h, rfl⟩)
  | expByteFifth _ h | crcVfyFails h | desEndFails h => exact .inr (.inr (.inl ⟨nofun, h, _, rfl⟩))
  | desSymAccepted h =>
    refine .inr (.inr (.inr ⟨nofun, h, h, _, rfl, ?_⟩))
    obtain ⟨-, hr⟩ | ⟨-, hr⟩ | ⟨-, -, hr⟩ := State.packReport_cases _ <;> rw [hr] <;> nofun
  | nop h | crcInit h | crcByte _ h | crcNib _ h | crcRd _ h | expByte _ h | crcVfyPasses h | serNib _ h | desInit h
  | desSymDropped h | desEndPasses h => exact .inr (.inr (.inr ⟨nofun, h, h, _, rfl, nofun⟩))

/-- Which commands write a codec register, and when (R23, R31, R32). -/
theorem Runs.codec_cases (h : Runs i s t) :
    SameCodec s t ∨ (∃ c, i = .desSym c ∧ accepted sbx c = true) ∨
      (∃ c, i = .desSym c ∧ t.sh = s.sh ∧ t.bcnt = s.bcnt ∧ t.ws = s.ws) ∨
      i = .desInit ∨ (i = .desEnd ∧ t.rsp = some .pass) ∨ i = .rst := by
  cases h with
  | rst => simp
  | desInit => simp
  | desEndPasses => simp
  | desSymAccepted _ hc => exact .inr (.inl ⟨_, rfl, hc⟩)
  | desSymDropped => exact .inr (.inr (.inl ⟨_, rfl, rfl, rfl, rfl⟩))
  | _ => exact .inl ⟨rfl, rfl, rfl, rfl⟩

/-- A passing `DES.END` clears the codec registers (R172). -/
theorem Runs.desEnd_pass (h : Runs .desEnd s t) (hp : t.rsp = some .pass) : t = s.clearCodec.respond .pass := by
  cases h with
  | desEndPasses => rfl
  | faulted | desEndFails => simp at hp

end Sys2Proof.Machine
end

section
/-! SUPPORT. What a word, a clock and a run of words do, from what a command does. -/

namespace Sys2Proof.Machine

variable {s t : State}

/-- A word's effect on `err` and its response: as `Runs.err_cases`, with `0xF00` for `RST`, an illegal word being one
that raises (R79). -/
theorem execWord_err_cases {w : CmdWord} (h : execWord w s = .next t) :
    (w = 0xF00 ∧ t.err = 0 ∧ t.rsp = some .ack) ∨
      (w ≠ 0xF00 ∧ s.err ≠ 0 ∧ t = s.respond (.err s.err)) ∨
      (w ≠ 0xF00 ∧ s.err = 0 ∧ ∃ e, t = s.raise e) ∨
      (w ≠ 0xF00 ∧ s.err = 0 ∧ t.err = 0 ∧ ∃ r, t.rsp = some r ∧ ∀ e, r ≠ .err e) := by
  obtain ⟨i, hd, hx⟩ | ⟨e, hd, hx⟩ := execWord_cases w s
  · have word_iff : i = .rst ↔ w = 0xF00 := by rw [← decode_eq_rst_iff, hd, Except.ok.injEq]
    simpa only [word_iff, ne_eq] using (exec_eq_next_iff.1 (hx.symm.trans h)).err_cases
  · have hw : w ≠ 0xF00 := fun hw => by cases hd.symm.trans ((decode_eq_rst_iff w).2 hw)
    cases hx.symm.trans h
    obtain ⟨hs, ht⟩ | ⟨hs, ht⟩ := s.illegalWord_cases
    · exact .inr (.inr (.inl ⟨hw, hs, _, ht⟩))
    · exact .inr (.inl ⟨hw, hs, ht⟩)

theorem clockEdge_reset {c : ClockIn} (s : State) (hr : c.rst = true) : clockEdge c s = .next s.resetClock := by
  simp [clockEdge, hr]

theorem clockEdge_command {c : ClockIn} (s : State) (hr : c.rst = false) (hv : c.cmdValid = true) :
    clockEdge c s = execWord c.cmd s := by
  simp [clockEdge, hr, hv]

theorem clockEdge_idle {c : ClockIn} (s : State) (hr : c.rst = false) (hv : c.cmdValid = false) :
    clockEdge c s = .next s.idleClock := by
  simp [clockEdge, hr, hv]

/-- A step is an idle clock, a reset clock, or a command (R40). -/
theorem step_cases (h : step s = .next t) :
    (t.err = s.err ∧ t.rsp = none) ∨
      ∃ c rest, s.inputs = c :: rest ∧
        ((c.rst = true ∧ t = State.resetClock { s with inputs := rest }) ∨
          (c.rst = false ∧ c.cmdValid = true ∧ execWord c.cmd { s with inputs := rest } = .next t)) := by
  cases hin : s.inputs with
  | nil =>
    cases (step_idle hin).symm.trans h
    exact .inl ⟨rfl, rfl⟩
  | cons c rest =>
    rw [step_clock hin] at h
    obtain ⟨hr, hc⟩ | ⟨hr, hv, hc⟩ | ⟨-, -, hc⟩ := clockEdge_cases c { s with inputs := rest }
    · cases hc.symm.trans h
      exact .inr ⟨c, rest, rfl, .inl ⟨hr, rfl⟩⟩
    · exact .inr ⟨c, rest, rfl, .inr ⟨hr, hv, hc.symm.trans h⟩⟩
    · cases hc.symm.trans h
      exact .inl ⟨rfl, rfl⟩

/-- A run that ended took its first word's step and then ran the rest. -/
theorem runWords_cons_eq_some {w : CmdWord} {ws : List CmdWord} {rs : List Rsp}
    (h : runWords (w :: ws) s = some (t, rs)) :
    ∃ v qs, execWord w s = .next v ∧ runWords ws v = some (t, qs) ∧ rs = v.rsp.toList ++ qs := by
  cases hx : execWord w s with
  | next v =>
    rw [runWords_cons ws hx] at h
    obtain ⟨⟨u, qs⟩, hrun, heq⟩ := Option.map_eq_some_iff.1 h
    obtain ⟨rfl, rfl⟩ := Prod.mk.inj heq
    exact ⟨v, qs, rfl, hrun, rfl⟩
  | fault r | refused r => simp [runWords, step_present, hx] at h

theorem execWord_encode (i : Instr) (s : State) : execWord (encode i) s = exec i s := by
  simp only [execWord, decode_encode]

theorem runCmds_cons {c : Instr} (rest : List Instr) (h : Runs c s t) :
    runCmds (c :: rest) s = (runCmds rest t).map fun r => (r.1, t.rsp.toList ++ r.2) :=
  runWords_cons _ ((execWord_encode c s).trans h.exec_eq)

theorem firstError_err_cons (e : ErrCode) (rs : List Rsp) : firstError (.err e :: rs) = some e := rfl

theorem firstError_cons_of_not_err {r : Rsp} (rs : List Rsp) (h : ∀ e, r ≠ .err e) :
    firstError (r :: rs) = firstError rs := by
  cases r with
  | err e => exact absurd rfl (h e)
  | _ => rfl

/-- The first error stays: no word but `RST` changes `err` in the fault state (R242). -/
theorem runWords_err_of_faulted {words : List CmdWord} {rs : List Rsp} (hs : s.err ≠ 0)
    (hw : ∀ w ∈ words, w ≠ 0xF00) (h : runWords words s = some (t, rs)) : t.err = s.err := by
  induction words generalizing s rs with
  | nil => cases h; rfl
  | cons w ws ih =>
    obtain ⟨hw₀, hws⟩ := List.forall_mem_cons.1 hw
    obtain ⟨v, qs, hx, hrun, -⟩ := runWords_cons_eq_some h
    have hv : v.err = s.err := by
      obtain ⟨hw₁, -⟩ | ⟨-, -, rfl⟩ | ⟨-, hs₀, -⟩ | ⟨-, hs₀, -⟩ := execWord_err_cases hx
      · exact absurd hw₁ hw₀
      · rfl
      · exact absurd hs₀ hs
      · exact absurd hs₀ hs
    exact (ih (hv ▸ hs) hws hrun).trans hv

/-- Over a run without `RST` from a fault-free machine, `err` is the first error answered (R35, R242). -/
theorem runWords_err_eq_firstError {words : List CmdWord} {rs : List Rsp} (hs : s.err = 0)
    (hw : ∀ w ∈ words, w ≠ 0xF00) (h : runWords words s = some (t, rs)) : t.err = (firstError rs).getD 0 := by
  induction words generalizing s rs with
  | nil => cases h; exact hs
  | cons w ws ih =>
    obtain ⟨hw₀, hws⟩ := List.forall_mem_cons.1 hw
    obtain ⟨v, qs, hx, hrun, rfl⟩ := runWords_cons_eq_some h
    obtain ⟨hw₁, -⟩ | ⟨-, hs₀, -⟩ | ⟨-, -, e, rfl⟩ | ⟨-, -, hv, r, hr, hne⟩ := execWord_err_cases hx
    · exact absurd hw₁ hw₀
    · exact absurd hs hs₀
    · rw [State.raise_rsp, Option.toList_some, List.singleton_append, firstError_err_cons, Option.getD_some]
      exact runWords_err_of_faulted e.code_ne_zero hws hrun
    · rw [hr, Option.toList_some, List.singleton_append, firstError_cons_of_not_err qs hne]
      exact ih hv hws hrun

/-- An `ERR` response carries `err`, which is then not 0, after every step (R35, R75). -/
theorem step_err_response {e : ErrCode} (h : step s = .next t) (hr : t.rsp = some (.err e)) : e = t.err ∧ e ≠ 0 := by
  obtain ⟨-, hn⟩ | ⟨c, rest, -, ⟨-, rfl⟩ | ⟨-, -, hx⟩⟩ := step_cases h
  · simp [hn] at hr
  · simp at hr
  · obtain ⟨-, -, ha⟩ | ⟨-, hs, rfl⟩ | ⟨-, -, k, rfl⟩ | ⟨-, -, -, r, hr', hne⟩ := execWord_err_cases hx
    · simp [ha] at hr
    · cases hr
      exact ⟨rfl, hs⟩
    · cases hr
      exact ⟨rfl, k.code_ne_zero⟩
    · exact absurd (Option.some.inj (hr'.symm.trans hr)) (hne e)

/-- A step changes `err` only by a fault entry from 0 or by a reset to 0 (R35, R236). -/
theorem step_err_changed (h : step s = .next t) (hne : t.err ≠ s.err) :
    (s.err = 0 ∧ t.rsp = some (.err t.err)) ∨
      (t.err = 0 ∧ ∃ c rest, s.inputs = c :: rest ∧ (c.rst = true ∨ (c.cmdValid = true ∧ c.cmd = 0xF00))) := by
  obtain ⟨he, -⟩ | ⟨c, rest, hin, ⟨hr, rfl⟩ | ⟨-, hv, hx⟩⟩ := step_cases h
  · exact absurd he hne
  · exact .inr ⟨rfl, c, rest, hin, .inl hr⟩
  · obtain ⟨hw, ht, -⟩ | ⟨-, -, rfl⟩ | ⟨-, hs, k, rfl⟩ | ⟨-, hs, ht, -⟩ := execWord_err_cases hx
    · exact .inr ⟨ht, c, rest, hin, .inr ⟨hv, hw⟩⟩
    · exact absurd rfl hne
    · exact .inl ⟨hs, rfl⟩
    · exact absurd (ht.trans hs.symm) hne

end Sys2Proof.Machine
end

section
/-! SUPPORT. The flags `any` and `ws` (R31, R32). -/

namespace Sys2Proof.Machine

variable {i : Instr} {s t : State}

/-- The machine with other values in its two flags. -/
def State.withFlags (s : State) (a w : Bool) : State := { s with any := a, ws := w }

/-- No command but `DES.END` reads a flag (R31, R32): from other values of the flags a command does the same but for the
flags, and a flag that began with its own value ends with its own. -/
theorem Runs.withFlags (h : Runs i s t) (hi : i ≠ .desEnd) (a w : Bool) :
    ∃ a' w', Runs i (s.withFlags a w) (t.withFlags a' w') ∧ (a = s.any → a' = t.any) ∧ (w = s.ws → w' = t.ws) := by
  cases h with
  | rst => exact ⟨false, false, .rst _, fun _ => rfl, fun _ => rfl⟩
  | faulted hi h => exact ⟨a, w, .faulted hi h, id, id⟩
  | nop h => exact ⟨a, w, .nop h, id, id⟩
  | crcInit h => exact ⟨a, w, .crcInit h, id, id⟩
  | crcByte b h => exact ⟨a, w, .crcByte b h, id, id⟩
  | crcNib n h => exact ⟨a, w, .crcNib n h, id, id⟩
  | crcRd k h => exact ⟨a, w, .crcRd k h, id, id⟩
  | expByteFifth b h hn => exact ⟨a, w, .expByteFifth b h hn, id, id⟩
  | expByte b h hn => exact ⟨a, w, .expByte b h hn, id, id⟩
  | crcVfyFails h he => exact ⟨a, w, .crcVfyFails h he, id, id⟩
  | crcVfyPasses h he => exact ⟨a, w, .crcVfyPasses h he, id, id⟩
  | serNib n h => exact ⟨a, w, .serNib n h, id, id⟩
  | desInit h => exact ⟨false, false, .desInit h, fun _ => rfl, fun _ => rfl⟩
  | desSymAccepted h hc => exact ⟨true, true, .desSymAccepted h hc, fun _ => rfl, fun _ => rfl⟩
  | desSymDropped h hc => exact ⟨true, w, .desSymDropped h hc, fun _ => rfl, id⟩
  | desEndFails | desEndPasses => exact absurd rfl hi

theorem State.streamError_of_any_eq_false (ha : s.any = false) : s.streamError = some .emptyFile := if_pos ha

theorem State.streamError_of_ws_eq_false (ha : s.any = true) (hw : s.ws = false) :
    s.streamError = some .invalidFormat := by
  simp [State.streamError, ha, hw]

theorem accepted_sbx_iff (c : Byte) : accepted sbx c = true ↔ c = 0x20 ∨ c = 0x09 := accepted_iff sbx c

/-- Symbols count in `bcnt` modulo 8, and `ws` is 1 once there was one (R32, R166). -/
theorem runCmds_desSym_bcnt_ws (text : List Byte) (s : State) (hs : s.err = 0) (hc : ∀ c ∈ text, c = 0x20 ∨ c = 0x09) :
    ∃ t rs, runCmds (text.map .desSym) s = some (t, rs) ∧ t.bcnt = s.bcnt + BitVec.ofNat 3 text.length ∧
      (text ≠ [] ∨ s.ws = true → t.ws = true) := by
  induction text generalizing s with
  | nil => exact ⟨s, [], rfl, by simp, by simp⟩
  | cons c text ih =>
    obtain ⟨hc₀, hcs⟩ := List.forall_mem_cons.1 hc
    have first := Runs.desSymAccepted hs ((accepted_sbx_iff c).2 hc₀)
    obtain ⟨t, rs, hrun, hb, hw⟩ := ih (s.accept (symbolBit sbx c)) hs hcs
    refine ⟨t, _, by rw [List.map_cons, runCmds_cons _ first, hrun]; rfl, ?_, fun _ => hw (.inr rfl)⟩
    calc t.bcnt = s.bcnt + 1 + BitVec.ofNat 3 text.length := hb
      _ = s.bcnt + BitVec.ofNat 3 (c :: text).length := by
        rw [List.length_cons, BitVec.ofNat_add, BitVec.add_assoc, BitVec.add_comm 1]; rfl

end Sys2Proof.Machine
end

section
/-! The state of the machine (10_state.md): the clock, the reset values, the flags and `err`. -/

namespace Sys2Proof.Machine

/-- Settles O12: the three kinds of clock. -/
theorem clockEdges : Obligations.ClockEdges := by
  intro s c rest hin
  rw [step_clock hin]
  refine ⟨fun hr => ?_, fun hr hv => ?_, fun hr hv => ?_⟩
  · rw [clockEdge_reset _ hr]; rfl
  · rw [clockEdge_command _ hr hv]; rfl
  · rw [clockEdge_idle _ hr hv]; rfl

/-- Settles O14: reset, `RST`, the port, and the two `INIT` commands lead to the same registers. -/
theorem resetState : Obligations.ResetState := by
  refine ⟨⟨rfl, rfl, rfl, rfl, rfl, rfl, rfl, rfl⟩, fun s => ?_, fun s c rest hin hr => ?_, fun s hs => ?_⟩
  · exact ⟨_, (Runs.rst s).exec_eq, ⟨rfl, rfl, rfl⟩, ⟨rfl, rfl, rfl, rfl⟩, rfl⟩
  · exact ⟨_, (clockEdges s c rest hin).1 hr, ⟨rfl, rfl, rfl⟩, ⟨rfl, rfl, rfl, rfl⟩, rfl⟩
  · have first := Runs.crcInit hs
    have second : Runs .desInit (s.startCrc.respond .ack) _ := .desInit hs
    exact ⟨_, _, first.exec_eq, second.exec_eq, ⟨rfl, rfl, rfl⟩, ⟨rfl, rfl, rfl, rfl⟩, hs⟩

/-- Settles O15: the writers of `any` are read off `Runs.codec_cases`, its one reader off `Runs.withFlags`. -/
theorem anyFlag : Obligations.AnyFlag := by
  refine ⟨fun c s hs => ?_, fun s hs => ⟨_, (Runs.desInit hs).exec_eq, rfl⟩, fun s t h hp => ?_,
    fun s => ⟨_, rfl, rfl⟩, fun i s t h hne => ?_, fun i s t v hi h => ?_, fun s hs ha => ?_⟩
  · cases hc : accepted sbx c with
    | true => exact ⟨_, (Runs.desSymAccepted hs hc).exec_eq, rfl⟩
    | false => exact ⟨_, (Runs.desSymDropped hs hc).exec_eq, rfl⟩
  · rw [(exec_eq_next_iff.1 h).desEnd_pass hp]; rfl
  · obtain ⟨-, -, ha, -⟩ | ⟨c, rfl, -⟩ | ⟨c, rfl, -⟩ | hi := (exec_eq_next_iff.1 h).codec_cases
    · exact absurd ha hne
    · exact .inl ⟨c, rfl⟩
    · exact .inl ⟨c, rfl⟩
    · exact .inr hi
  · obtain ⟨a, w, hr, -, hw⟩ := (exec_eq_next_iff.1 h).withFlags hi v s.ws
    exact ⟨_, hr.exec_eq, by rw [hw rfl]; rfl⟩
  · exact (Runs.desEndFails hs (State.streamError_of_any_eq_false ha)).exec_eq

/-- Settles O16: as for `any`, with the count of symbols for the last clause. -/
theorem wsFlag : Obligations.WsFlag := by
  refine ⟨fun c s hs hc => ?_, fun s hs => ⟨_, (Runs.desInit hs).exec_eq, rfl⟩, fun s t h hp => ?_,
    fun s => ⟨_, rfl, rfl⟩, fun i s t h hne => ?_, fun i s t v hi h => ?_, fun s hs ha hw => ?_,
    fun s text hs hl hc => ?_⟩
  · exact ⟨_, (Runs.desSymAccepted hs ((accepted_sbx_iff c).2 hc)).exec_eq, rfl⟩
  · rw [(exec_eq_next_iff.1 h).desEnd_pass hp]; rfl
  · obtain ⟨-, -, -, hw⟩ | ⟨c, rfl, hc⟩ | ⟨c, -, -, -, hw⟩ | hi := (exec_eq_next_iff.1 h).codec_cases
    · exact absurd hw hne
    · obtain rfl | rfl := (accepted_sbx_iff c).1 hc
      · exact .inl rfl
      · exact .inr (.inl rfl)
    · exact absurd hw hne
    · exact .inr (.inr hi)
  · obtain ⟨a, w, hr, ha, -⟩ := (exec_eq_next_iff.1 h).withFlags hi s.any v
    exact ⟨_, hr.exec_eq, by rw [ha rfl]; rfl⟩
  · exact (Runs.desEndFails hs (State.streamError_of_ws_eq_false ha hw)).exec_eq
  · obtain ⟨t, rs, hrun, hb, hw⟩ := runCmds_desSym_bcnt_ws text s hs hc
    exact ⟨t, rs, hrun, by simp [hb, hl], hw (.inl (List.ne_nil_of_length_eq_add_one hl))⟩

/-- Settles O18: the writers of `err` at one step, and by induction over a run its first error. -/
theorem errRegister : Obligations.ErrRegister :=
  ⟨fun _ _ => step_err_changed, fun _ _ _ _ => runWords_err_eq_firstError,
    fun _ _ _ h => ⟨rfl, step_err_response h⟩⟩

end Sys2Proof.Machine
end

section
/-! SUPPORT. The two units apart (R62): what a command reads is the registers of its own unit and `err`, so it can be
carried over to any machine that agrees on those. -/

namespace Sys2Proof.Machine

variable {i : Instr} {s s' t t' : State}

/-- A command has one outcome. -/
theorem Runs.unique (h : Runs i s t) (h' : Runs i s t') : t = t' := by
  cases h.exec_eq.symm.trans h'.exec_eq
  rfl

/-! Frames: the registers of the other unit. -/

theorem Runs.sameCrc (h : Runs i s t) (hc : i.isCrc = false) (hr : i ≠ .rst) : SameCrc s t := by
  cases h with
  | rst => exact absurd rfl hr
  | crcInit | crcByte | crcNib | expByte => cases hc
  | _ => exact ⟨rfl, rfl, rfl⟩

theorem Runs.sameCodec (h : Runs i s t) (hc : i.isCodec = false) (hr : i ≠ .rst) : SameCodec s t := by
  obtain hs | ⟨c, rfl, -⟩ | ⟨c, rfl, -⟩ | rfl | ⟨rfl, -⟩ | rfl := h.codec_cases
  · exact hs
  · cases hc
  · cases hc
  · cases hc
  · cases hc
  · exact absurd rfl hr

theorem Instr.isCodec_of_isCrc (h : i.isCrc = true) : i.isCodec = false := by
  cases i with
  | crcInit | crcByte | crcNib | crcRd | expByte | crcVfy => rfl
  | _ => cases h

theorem Instr.isCrc_of_isCodec (h : i.isCodec = true) : i.isCrc = false := by
  cases i with
  | serNib | desInit | desSym | desEnd => rfl
  | _ => cases h

/-! The tests and reports of a unit read that unit's registers. -/

theorem SameCrc.verifyError_eq (h : SameCrc s s') : s'.verifyError = s.verifyError := by
  obtain ⟨hcrc, hexp, hexpn⟩ := h
  simp only [State.verifyError, hcrc, hexp, hexpn]

theorem SameCodec.streamError_eq (h : SameCodec s s') : s'.streamError = s.streamError := by
  obtain ⟨-, hbcnt, hany, hws⟩ := h
  simp only [State.streamError, hbcnt, hany, hws]

theorem SameCodec.packReport_eq (h : SameCodec s s') : s'.packReport = s.packReport := by
  obtain ⟨hsh, hbcnt, -, -⟩ := h
  simp only [State.packReport, hsh, hbcnt]

/-- Packing the same bit keeps two machines alike in the codec unit (R166). -/
theorem SameCodec.packBit (h : SameCodec s s') (d : BitVec 1) :
    SameCodec (s.noteOctet.noteAccepted.packBit d) (s'.noteOctet.noteAccepted.packBit d) := by
  obtain ⟨hsh, hbcnt, -, -⟩ := h
  exact ⟨congrArg (fun sh : Byte => sh.extractLsb' 0 7 ++ d) hsh, congrArg (· + 1) hbcnt, rfl, rfl⟩

/-- A CRC command does the same from a machine that agrees on the CRC registers and `err`, whatever its codec registers
hold (R62). -/
theorem Runs.of_sameCrc (h : Runs i s t) (hi : i.isCrc = true) (hs : SameCrc s s') (he : s'.err = s.err) :
    ∃ t', Runs i s' t' ∧ SameCrc t t' ∧ t'.err = t.err ∧ t'.rsp = t.rsp := by
  have hv := hs.verifyError_eq
  have ⟨hcrc, hexp, hexpn⟩ := hs
  cases h with
  | faulted hr h => exact ⟨_, .faulted hr (he ▸ h), hs, he, by simp [he]⟩
  | crcInit h => exact ⟨_, .crcInit (he.trans h), ⟨rfl, rfl, rfl⟩, he, rfl⟩
  | crcByte b h => exact ⟨_, .crcByte b (he.trans h), ⟨congrArg (upd8 sbx · b) hcrc, hexp, hexpn⟩, he, rfl⟩
  | crcNib n h => exact ⟨_, .crcNib n (he.trans h), ⟨congrArg (upd4 sbx · n) hcrc, hexp, hexpn⟩, he, rfl⟩
  | crcRd k h => exact ⟨_, .crcRd k (he.trans h), hs, he, by simp [hcrc]⟩
  | expByteFifth b h hn => exact ⟨_, .expByteFifth b (he.trans h) (hexpn.trans hn), hs, rfl, rfl⟩
  | expByte b h hn =>
    exact ⟨_, .expByte b (he.trans h) (hexpn ▸ hn), ⟨hcrc, by simp [hexp], by simp [hexpn]⟩, he, rfl⟩
  | crcVfyFails h hf => exact ⟨_, .crcVfyFails (he.trans h) (hv.trans hf), hs, rfl, rfl⟩
  | crcVfyPasses h hf => exact ⟨_, .crcVfyPasses (he.trans h) (hv.trans hf), hs, he, rfl⟩
  | _ => cases hi

/-- A codec command does the same from a machine that agrees on the codec registers and `err`, whatever its CRC
registers hold (R62). -/
theorem Runs.of_sameCodec (h : Runs i s t) (hi : i.isCodec = true) (hs : SameCodec s s') (he : s'.err = s.err) :
    ∃ t', Runs i s' t' ∧ SameCodec t t' ∧ t'.err = t.err ∧ t'.rsp = t.rsp := by
  have hf := hs.streamError_eq
  have ⟨hsh, hbcnt, _, hws⟩ := hs
  cases h with
  | faulted hr h => exact ⟨_, .faulted hr (he ▸ h), hs, he, by simp [he]⟩
  | serNib n h => exact ⟨_, .serNib n (he.trans h), hs, he, rfl⟩
  | desInit h => exact ⟨_, .desInit (he.trans h), ⟨rfl, rfl, rfl, rfl⟩, he, rfl⟩
  | desSymAccepted h hc =>
    exact ⟨_, .desSymAccepted (he.trans h) hc, hs.packBit _, he, congrArg some (hs.packBit _).packReport_eq⟩
  | desSymDropped h hc => exact ⟨_, .desSymDropped (he.trans h) hc, ⟨hsh, hbcnt, rfl, hws⟩, he, rfl⟩
  | desEndFails h hk => exact ⟨_, .desEndFails (he.trans h) (hf.trans hk), hs, rfl, rfl⟩
  | desEndPasses h hk => exact ⟨_, .desEndPasses (he.trans h) (hf.trans hk), ⟨rfl, rfl, rfl, rfl⟩, he, rfl⟩
  | _ => cases hi

/-- `SER.NIB` does nothing but answer, and its answer reads `err` alone (R140, R240). -/
theorem Runs.serNib_eq {n : Nibble} (h : Runs (.serNib n) s t) :
    t = s.respond (if s.err = 0 then .sym4 (sym4 sbx n) else .err s.err) := by
  cases h with
  | serNib _ h => rw [if_pos h]
  | faulted _ h => rw [if_neg h]

end Sys2Proof.Machine
end

section
/-! The two units do not interfere (20_memory.md section 5). -/

namespace Sys2Proof.Machine

/-- Settles O25: the frames are `Runs.sameCodec` and `Runs.sameCrc`; that a command reads its own unit alone is its run
carried over to the second machine, where its outcome is the only one. -/
theorem unitsIndependent : Obligations.UnitsIndependent := by
  simp only [Obligations.UnitsIndependent, exec_eq_next_iff]
  refine ⟨fun i s t hi h => ?_, fun i s t hi h => ?_, fun n s t _ h => ?_, fun i s s' t t' hi hs he h h' => ?_,
    fun i s s' t t' hi hs he h h' => ?_, fun n s s' t t' he h h' => ?_, fun i s t hi hs h => ?_⟩
  · exact h.sameCodec (Instr.isCodec_of_isCrc hi) (by rintro rfl; cases hi)
  · exact h.sameCrc (Instr.isCrc_of_isCodec hi) (by rintro rfl; cases hi)
  · rw [h.serNib_eq]
    exact ⟨⟨rfl, rfl, rfl⟩, ⟨rfl, rfl, rfl, rfl⟩, rfl⟩
  · obtain ⟨u, hu, same⟩ := h.of_sameCrc hi hs he
    rwa [h'.unique hu]
  · obtain ⟨u, hu, same⟩ := h.of_sameCodec hi hs he
    rwa [h'.unique hu]
  · rw [h.serNib_eq, h'.serNib_eq, he]
    rfl
  · rw [h.unique (.faulted hi hs)]
    exact ⟨⟨⟨rfl, rfl, rfl⟩, ⟨rfl, rfl, rfl, rfl⟩, rfl⟩, rfl⟩

end Sys2Proof.Machine
end

section
/-! SUPPORT. The words the decoder refuses (R71, R79) and the rows of the opcode map (R72), read off the two fields of a
word; and the octets of `DES.STR` (R82). -/

namespace Sys2Proof

/-- The fields of the words that R79 calls illegal: a reserved operation, or a bit of the operand that R71 says must be
zero is one. -/
def IllegalFields (op : BitVec 4) (arg : Byte) : Prop :=
  op ∈ [0xB#4, 0xC#4, 0xD#4, 0xE#4] ∨ (op ∈ [0x0#4, 0x1#4, 0x6#4, 0x8#4, 0xA#4, 0xF#4] ∧ arg ≠ 0) ∨
    (op ∈ [0x3#4, 0x7#4] ∧ arg.extractLsb' 4 4 ≠ 0) ∨ (op = 0x4#4 ∧ arg.extractLsb' 2 6 ≠ 0)

theorem decodeNone_eq_error_iff (w : CmdWord) (i : Instr) : (∃ e, decodeNone w i = .error e) ↔ argField w ≠ 0 := by
  unfold decodeNone
  split <;> simp_all

theorem decodeNibble_eq_error_iff (w : CmdWord) (mk : Nibble → Instr) :
    (∃ e, decodeNibble w mk = .error e) ↔ (argField w).extractLsb' 4 4 ≠ 0 := by
  unfold decodeNibble
  split <;> simp_all

theorem decodeIndex_eq_error_iff (w : CmdWord) (mk : BitVec 2 → Instr) :
    (∃ e, decodeIndex w mk = .error e) ↔ (argField w).extractLsb' 2 6 ≠ 0 := by
  unfold decodeIndex
  split <;> simp_all

theorem decode_eq_error_iff (w : CmdWord) :
    (∃ e, decode w = .error e) ↔ IllegalFields (opField w) (argField w) := by
  unfold decode
  split <;> rename_i hop
  case h_1 | h_2 | h_7 | h_9 | h_11 | h_12 => simp [decodeNone_eq_error_iff, IllegalFields, hop]
  case h_4 | h_8 => simp [decodeNibble_eq_error_iff, IllegalFields, hop]
  case h_5 => simp [decodeIndex_eq_error_iff, IllegalFields, hop]
  case h_3 | h_6 | h_10 => simp [IllegalFields, hop]
  case h_13 =>
    have reserved : ∀ op : BitVec 4,
        op ∉ [0x0#4, 0x1#4, 0x2#4, 0x3#4, 0x4#4, 0x5#4, 0x6#4, 0x7#4, 0x8#4, 0x9#4, 0xA#4, 0xF#4] →
          op ∈ [0xB#4, 0xC#4, 0xD#4, 0xE#4] := by decide
    exact iff_of_true ⟨_, rfl⟩ (.inl (reserved _ (by simp_all)))

theorem decode_eq_error_iff_not_ok (w : CmdWord) : (∃ e, decode w = .error e) ↔ ¬∃ i, decode w = .ok i := by
  cases decode w <;> simp

theorem decode_append_eq_error {op : BitVec 4} {arg : Byte} (h : IllegalFields op arg) :
    ∃ e, decode (op ++ arg) = .error e := by
  rwa [decode_eq_error_iff, opField_append, argField_append]

theorem decode_append_nibble_eq_error {op : BitVec 4} {z n : Nibble} (hop : op ∈ [0x3#4, 0x7#4]) (hz : z ≠ 0) :
    ∃ e, decode (op ++ z ++ n) = .error e := by
  rw [BitVec.append_assoc]
  exact decode_append_eq_error (.inr (.inr (.inl ⟨hop, by rwa [BitVec.extractLsb'_append_eq_left]⟩)))

theorem decode_append_index_eq_error {z : BitVec 6} {k : BitVec 2} (hz : z ≠ 0) :
    ∃ e, decode (0x4#4 ++ z ++ k) = .error e := by
  rw [BitVec.append_assoc]
  exact decode_append_eq_error (.inr (.inr (.inr ⟨rfl, by rwa [BitVec.extractLsb'_append_eq_left]⟩)))

theorem decode_eq_ok_iff (w : CmdWord) (i : Instr) : decode w = .ok i ↔ w = encode i :=
  ⟨fun h => (encode_of_decode h).symm, fun h => h ▸ decode_encode i⟩

/-- A row of the opcode map: the mask keeps the `j` leading bits of the word, and the `k` bits below are the operand. -/
theorem and_mask_eq_iff {j k : Nat} (w : BitVec (j + k)) (m : BitVec j) :
    w &&& (BitVec.allOnes j ++ 0#k) = m ++ 0#k ↔ ∃ b : BitVec k, w = m ++ b := by
  obtain ⟨hi, lo, rfl⟩ : ∃ (hi : BitVec j) (lo : BitVec k), w = hi ++ lo :=
    ⟨w.extractLsb' k j, w.extractLsb' 0 k, by
      rw [BitVec.extractLsb'_append_extractLsb'_eq_extractLsb' (by simp)]; simp⟩
  rw [BitVec.and_append, BitVec.and_allOnes, BitVec.and_zero, BitVec.append_left_inj]
  refine ⟨fun h => ⟨lo, h ▸ rfl⟩, fun ⟨b, h⟩ => ?_⟩
  rw [← BitVec.extractLsb'_append_eq_left (a := hi) (b := lo), h, BitVec.extractLsb'_append_eq_left]

/-- A property of some command, command by command. -/
theorem Instr.exists_iff (P : Instr → Prop) :
    (∃ i, P i) ↔ P .nop ∨ P .crcInit ∨ (∃ b, P (.crcByte b)) ∨ (∃ n, P (.crcNib n)) ∨ (∃ k, P (.crcRd k)) ∨
      (∃ b, P (.expByte b)) ∨ P .crcVfy ∨ (∃ n, P (.serNib n)) ∨ P .desInit ∨ (∃ c, P (.desSym c)) ∨ P .desEnd ∨
      P .rst := by
  constructor
  · rintro ⟨i, h⟩
    cases i <;> grind
  · grind

/-- The twelve mnemonics in the order of the opcode map (R72). -/
def Mnemonic.all : List Mnemonic :=
  [.nop, .crcInit, .crcByte, .crcNib, .crcRd, .expByte, .crcVfy, .serNib, .desInit, .desSym, .desEnd, .rst]

theorem Mnemonic.mem_all (m : Mnemonic) : m ∈ all := by cases m <;> decide

/-- The words of a mnemonic's row are those that decode to a command of that mnemonic (R72). -/
theorem and_opcodeRow_eq_iff (m : Mnemonic) (w : CmdWord) :
    w &&& (opcodeRow m).2 = (opcodeRow m).1 ↔ ∃ i : Instr, i.mnemonic = m ∧ decode w = .ok i := by
  have whole (v : CmdWord) : w &&& BitVec.allOnes 12 = v ↔ w = v := by rw [BitVec.and_allOnes]
  cases m <;> simp only [Instr.exists_iff, Instr.mnemonic, decode_eq_ok_iff, reduceCtorEq, true_and, false_and,
    exists_false, or_false, false_or]
  case nop | crcInit | crcVfy | desInit | desEnd | rst => exact whole _
  case crcByte => exact and_mask_eq_iff (k := 8) w 0x2#4
  case expByte => exact and_mask_eq_iff (k := 8) w 0x5#4
  case desSym => exact and_mask_eq_iff (k := 8) w 0x9#4
  case crcNib => exact and_mask_eq_iff (k := 4) w (0x3#4 ++ 0#4)
  case serNib => exact and_mask_eq_iff (k := 4) w (0x7#4 ++ 0#4)
  case crcRd => exact and_mask_eq_iff (k := 2) w (0x4#4 ++ 0#6)

theorem decode_eq_error_iff_no_row (w : CmdWord) :
    (∃ e, decode w = .error e) ↔ ∀ row ∈ Mnemonic.all.map opcodeRow, w &&& row.2 ≠ row.1 := by
  rw [decode_eq_error_iff_not_ok]
  simp only [List.forall_mem_map, Mnemonic.mem_all, true_imp_iff, ne_eq, and_opcodeRow_eq_iff]
  exact ⟨fun h m ⟨i, _, hi⟩ => h ⟨i, hi⟩, fun h ⟨i, hi⟩ => h _ ⟨i, rfl, hi⟩⟩

/-- Two rows share no word: a bit that both masks keep tells their match values apart. -/
theorem rows_disjoint {r q : CmdWord × CmdWord} (h : r.1 &&& q.2 ≠ q.1 &&& r.2) (w : CmdWord) :
    ¬(w &&& r.2 = r.1 ∧ w &&& q.2 = q.1) := by
  rintro ⟨hr, hq⟩
  exact h (by rw [← hr, ← hq, BitVec.and_assoc, BitVec.and_assoc, BitVec.and_comm r.2])

end Sys2Proof

namespace Sys2Proof.Machine

/-- An octet of an ASCII text (R82). -/
theorem desStrOctet_of_ascii {ch : Char} (h : ch.toNat < 128) :
    desStrOctet ch = some (if ch = 'S' then 0x20 else if ch = 'T' then 0x09 else BitVec.ofNat 8 ch.toNat) := by
  unfold desStrOctet
  split_ifs <;> rfl

end Sys2Proof.Machine
end

section
/-! The encoding (30_encoding.md): illegal words, operand fields, the opcode map and the pseudo-commands. -/

namespace Sys2Proof.Machine

/-- Settles O6: which words are refused is read off the two fields; what one does is the step's order (R240). -/
theorem illegalWords : Obligations.IllegalWords := by
  intro w
  refine ⟨(decode_eq_error_iff w).symm, fun illegal s => ?_⟩
  obtain ⟨e, he⟩ := (decode_eq_error_iff w).2 illegal
  have hstep : step (s.present w) = .next s.illegalWord := by rw [step_present, execWord, he]
  exact ⟨fun hs => hstep.trans (congrArg _ (State.unlessFaulted_of_faultFree _ hs)),
    fun hs => hstep.trans (congrArg _ (State.unlessFaulted_of_faulted _ hs))⟩

/-- Settles O1: the encoder's words decode, and a must-be-zero bit that is one makes the fields illegal. -/
theorem operandFields : Obligations.OperandFields := by
  refine ⟨fun a => ⟨decode_encode (.crcByte a), decode_encode (.expByte a), decode_encode (.desSym a)⟩,
    fun z n => ⟨?_, fun hz => ?_⟩, fun z k => ⟨?_, decode_append_index_eq_error⟩, fun a => ⟨?_, fun ha => ?_⟩⟩
  · rintro rfl
    exact ⟨decode_encode (.crcNib n), decode_encode (.serNib n)⟩
  · exact ⟨decode_append_nibble_eq_error (by simp) hz, decode_append_nibble_eq_error (by simp) hz⟩
  · rintro rfl
    exact decode_encode (.crcRd k)
  · rintro rfl
    exact ⟨rfl, rfl, rfl, rfl, rfl, rfl⟩
  · have refuses (op : BitVec 4) (hop : op ∈ [0x0#4, 0x1#4, 0x6#4, 0x8#4, 0xA#4, 0xF#4]) :
        ∃ e, decode (op ++ a) = .error e := decode_append_eq_error (.inr (.inl ⟨hop, ha⟩))
    exact ⟨refuses _ (by simp), refuses _ (by simp), refuses _ (by simp), refuses _ (by simp), refuses _ (by simp),
      refuses _ (by simp)⟩

/-- Settles O2: a row's words are those that decode to its mnemonic, and every command has a mnemonic. -/
theorem opcodeMap : Obligations.OpcodeMap := by
  refine ⟨fun w => ?_, fun w => (decode_eq_error_iff_no_row w).symm, List.Pairwise.imp rows_disjoint (by decide)⟩
  have row (m : Mnemonic) := and_opcodeRow_eq_iff m w
  simp only [Instr.exists_iff] at row
  refine ⟨(row .nop).trans ?_, (row .crcInit).trans ?_, (row .crcByte).trans ?_, (row .crcNib).trans ?_,
    (row .crcRd).trans ?_, (row .expByte).trans ?_, (row .crcVfy).trans ?_, (row .serNib).trans ?_,
    (row .desInit).trans ?_, (row .desSym).trans ?_, (row .desEnd).trans ?_, (row .rst).trans ?_⟩ <;>
  simp [Instr.mnemonic]

/-- Settles O9: the expansions by definition, `DES.STR` by induction on its text. -/
theorem pseudoCommands : Obligations.PseudoCommands := by
  refine ⟨fun _ => rfl, fun _ => rfl, fun _ => rfl, rfl, fun _ => rfl, fun text ascii => ?_,
    fun c rest s t h => runCmds_cons rest (exec_eq_next_iff.1 h)⟩
  rw [desStr]
  induction text with
  | nil => rfl
  | cons ch text ih =>
    obtain ⟨hch, htext⟩ := List.forall_mem_cons.1 ascii
    obtain ⟨os, hos, heq⟩ := Option.map_eq_some_iff.1 (ih htext)
    simp [List.mapM_cons, desStrOctet_of_ascii hch, hos, heq]

end Sys2Proof.Machine
end

section
/-! SUPPORT. What the host writes and reads at the CRC unit (40_crc.md section 3): the words with an operand in their
low bits, the words with an illegal operand, the four bytes of a checksum, the loads of the received one, and what
`CRC.VFY` finds. -/

namespace Sys2Proof

/-- An operand in the low bits of a word whose low bits are zero (R71). -/
theorem append_zero_or_setWidth {j k : Nat} (m : BitVec j) (b : BitVec k) :
    (m ++ 0#k) ||| b.setWidth (j + k) = m ++ b := by
  have low : b.setWidth (j + k) = 0#j ++ b := by
    rw [BitVec.setWidth_eq_append (by omega)]
    simp
  rw [low, BitVec.or_append, BitVec.or_zero, BitVec.zero_or]

end Sys2Proof

namespace Sys2Proof.Machine

variable {s : State}

/-- A word the decoder refuses raises `IllegalCommand` (R79). -/
theorem raisesIllegal_of_decode_eq_error {w : CmdWord} (h : ∃ e, decode w = .error e) : RaisesIllegal w := by
  obtain ⟨-, outcome⟩ := illegalWords w
  exact fun s => (outcome ((decode_eq_error_iff w).1 h) s).1

/-- An operand other than zero at a command that takes none (R71). -/
theorem raisesIllegal_of_arg_ne_zero {op : BitVec 4} {arg : Byte}
    (hop : op ∈ [0x0#4, 0x1#4, 0x6#4, 0x8#4, 0xA#4, 0xF#4]) (harg : arg ≠ 0) : RaisesIllegal (op ++ arg) :=
  raisesIllegal_of_decode_eq_error (decode_append_eq_error (.inr (.inl ⟨hop, harg⟩)))

/-- A checksum's byte by its index (R52, R120). -/
theorem checksumByte_eq_ite (c : CrcWord) (k : BitVec 2) :
    checksumByte c k = if k = 0 then c.extractLsb' 24 8 else if k = 1 then c.extractLsb' 16 8
      else if k = 2 then c.extractLsb' 8 8 else c.extractLsb' 0 8 := by
  have index : ∀ k : BitVec 2, k = 0 ∨ k = 1 ∨ k = 2 ∨ k = 3 := by decide
  obtain rfl | rfl | rfl | rfl := index k <;> rfl

/-- A run of a command and then the rest, response by response. -/
theorem runCmds_cons_of_runs {c : Instr} {rest : List Instr} {t u : State} {r : Rsp} {rs : List Rsp} (h : Runs c s t)
    (hr : t.rsp = some r) (hrest : runCmds rest t = some (u, rs)) : runCmds (c :: rest) s = some (u, r :: rs) := by
  rw [runCmds_cons rest h, hrest, hr]
  rfl

/-- `CRC.SUM` answers the checksum's four bytes, most-significant first, and writes no register (R52, R120). -/
theorem runCmds_crcSum (hs : s.err = 0) :
    runCmds crcSum s = some (s.respond (.byte ((checksum sbx s.crc).extractLsb' 0 8)),
      (checksumBytes (checksum sbx s.crc)).map .byte) :=
  runCmds_cons_of_runs (.crcRd 0 hs) rfl <| runCmds_cons_of_runs (.crcRd 1 hs) rfl <|
    runCmds_cons_of_runs (.crcRd 2 hs) rfl <| runCmds_cons_of_runs (.crcRd 3 hs) rfl rfl

/-- A load moves the bytes already there up by one and puts the new one below them (R124). -/
theorem extractLsb'_append_eq_shiftLeft_or (c : CrcWord) (b : Byte) :
    c.extractLsb' 0 24 ++ b = (c <<< 8) ||| (0#24 ++ b) := by
  rw [BitVec.shiftLeft_eq_concat_of_lt (by decide), BitVec.cast_eq, BitVec.or_append, BitVec.or_zero, BitVec.zero_or]

/-- The low bits of `exp` after a load: the new byte, and above it the low bits before (R124). -/
theorem State.loadExp_exp_low (s : State) (b : Byte) {n : Nat} (hn : n ≤ 24) :
    (s.loadExp b).exp.extractLsb' 0 (n + 8) = s.exp.extractLsb' 0 n ++ b := by
  rw [State.loadExp_exp]
  grind

/-- Four loads replace the whole of `exp`, the first byte most significant (R52, R124). -/
theorem State.loadExp_four_exp (s : State) (b0 b1 b2 b3 : Byte) :
    ((((s.loadExp b0).loadExp b1).loadExp b2).loadExp b3).exp = b0 ++ b1 ++ b2 ++ b3 := by
  rw [State.loadExp_exp, State.loadExp_exp_low (n := 16) _ _ (by decide),
    State.loadExp_exp_low (n := 8) _ _ (by decide), State.loadExp_exp_low (n := 0) _ _ (by decide),
    BitVec.zero_width_append]
  rfl

@[simp] theorem State.loadExp_respond (s : State) (r : Rsp) (b : Byte) :
    (s.respond r).loadExp b = (s.loadExp b).respond r := rfl

@[simp] theorem State.respond_respond (s : State) (r r' : Rsp) : (s.respond r).respond r' = s.respond r' := rfl

/-- Loads that `expn` has room for are each accepted (R124). -/
theorem runCmds_expByte (bs : List Byte) (hs : s.err = 0) (hn : s.expn.toNat + bs.length ≤ 4) :
    runCmds (bs.map .expByte) s =
      some (bs.foldl (fun u b => (u.loadExp b).respond .ack) s, List.replicate bs.length .ack) := by
  induction bs generalizing s with
  | nil => rfl
  | cons b bs ih =>
    rw [List.length_cons] at hn
    have room : s.expn ≠ 4 := by bv_omega
    have next : (s.expn + 1).toNat + bs.length ≤ 4 := by bv_omega
    exact runCmds_cons_of_runs (.expByte b hs room) rfl (ih (s := (s.loadExp b).respond .ack) hs next)

/-- Four loads from `expn = 0` load the four bytes as one word (R124). -/
theorem runCmds_expByte_four (hs : s.err = 0) (hn : s.expn = 0) (b0 b1 b2 b3 : Byte) :
    runCmds [.expByte b0, .expByte b1, .expByte b2, .expByte b3] s =
      some ({ s with exp := b0 ++ b1 ++ b2 ++ b3, expn := 4, rsp := some .ack }, [.ack, .ack, .ack, .ack]) := by
  have count : s.expn + 1 + 1 + 1 + 1 = 4 := by rw [hn]; rfl
  have loads := runCmds_expByte [b0, b1, b2, b3] hs (by simp [hn])
  simp only [List.foldl, State.loadExp_respond, State.respond_respond] at loads
  rw [← State.loadExp_four_exp s, ← count]
  exact loads

/-! What `CRC.VFY` finds (R128), in its order. -/

theorem State.verifyError_of_expn_ne (h : s.expn ≠ 4) : s.verifyError = some .sliceError := if_pos h

theorem State.verifyError_of_checksum_ne (hn : s.expn = 4) (h : checksum sbx s.crc ≠ s.exp) :
    s.verifyError = some .integrityError := by
  rw [State.verifyError, if_neg (not_not_intro hn), if_pos h]

theorem State.verifyError_of_checksum_eq (hn : s.expn = 4) (h : checksum sbx s.crc = s.exp) : s.verifyError = none := by
  rw [State.verifyError, if_neg (not_not_intro hn), if_neg (not_not_intro h)]

end Sys2Proof.Machine
end

section
/-! The commands of the CRC unit (40_crc.md section 3): `CRC.RD`, `EXP.BYTE`, `CRC.VFY` and `CRC.INIT`. -/

namespace Sys2Proof.Machine

/-- Settles O40: the read's run, its words' fields, and the four reads of `CRC.SUM`. -/
theorem crcRdReads : Obligations.CrcRdReads := by
  refine ⟨fun k s hs => ?_, fun k => ?_, fun z k hz => ?_, fun s hs hcrc => ?_⟩
  · rw [(Runs.crcRd k hs).exec_eq, checksumByte_eq_ite]
    rfl
  · exact (congrArg decode (append_zero_or_setWidth (0x4#4 ++ 0#6) k)).trans (decode_encode (.crcRd k))
  · exact raisesIllegal_of_decode_eq_error (decode_append_index_eq_error hz)
  · have sum : checksum sbx s.crc = 0x09B9265B := by rw [hcrc]; rfl
    rw [runCmds_crcSum hs, sum]
    rfl

/-- Settles O41: the two branches of a load, its words, and four loads in a row. -/
theorem expByteLoads : Obligations.ExpByteLoads := by
  refine ⟨fun b s hs hn => ?_, fun b s hs hn => (Runs.expByteFifth b hs hn).exec_eq, fun b => ?_,
    fun s b0 b1 b2 b3 hs _ hn => runCmds_expByte_four hs hn b0 b1 b2 b3⟩
  · rw [(Runs.expByte b hs hn).exec_eq, ← extractLsb'_append_eq_shiftLeft_or]
    rfl
  · exact (congrArg decode (append_zero_or_setWidth 0x5#4 b)).trans (decode_encode (.expByte b))

/-- Settles O42: the three things `CRC.VFY` can find, in their order, and its words. -/
theorem crcVfyCompares : Obligations.CrcVfyCompares :=
  ⟨fun _ hs hn => (Runs.crcVfyFails hs (State.verifyError_of_expn_ne hn)).exec_eq,
    fun _ hs hn hne => (Runs.crcVfyFails hs (State.verifyError_of_checksum_ne hn hne)).exec_eq,
    fun _ hs hn heq => (Runs.crcVfyPasses hs (State.verifyError_of_checksum_eq hn heq)).exec_eq,
    decode_encode .crcVfy, fun _ => raisesIllegal_of_arg_ne_zero (by simp)⟩

/-- Settles O37: the command's run and its words. -/
theorem crcInitStarts : Obligations.CrcInitStarts :=
  ⟨fun _ hs => (Runs.crcInit hs).exec_eq, decode_encode .crcInit, fun _ => raisesIllegal_of_arg_ne_zero (by simp)⟩

end Sys2Proof.Machine
end

section
/-! The serializer (41_serializer.md): the four octets of a word, the word of a nibble's symbols, and `SER.NIB`. -/

namespace Sys2Proof.Machine

/-- The octets above an appended one, each eight bits lower in the word without it. -/
theorem extractLsb'_append_octet {v : Nat} (hi : BitVec v) (lo : Byte) (k : Nat) :
    (hi ++ lo).extractLsb' (k + 8) 8 = hi.extractLsb' k 8 := by
  rw [BitVec.extractLsb'_append_eq_of_le (Nat.le_add_left 8 k), Nat.add_sub_cancel]

/-- A word put together from four octets has them in its lanes, the first in the most significant one (R52, R76). -/
theorem checksumBytes_append (a b c d : Byte) : checksumBytes (a ++ b ++ c ++ d) = [a, b, c, d] := by
  have lane3 : (a ++ b ++ c ++ d).extractLsb' 24 8 = a := by
    rw [extractLsb'_append_octet _ _ 16, extractLsb'_append_octet _ _ 8, BitVec.extractLsb'_append_eq_left]
  have lane2 : (a ++ b ++ c ++ d).extractLsb' 16 8 = b := by
    rw [extractLsb'_append_octet _ _ 8, extractLsb'_append_octet _ _ 0, BitVec.extractLsb'_append_eq_right]
  have lane1 : (a ++ b ++ c ++ d).extractLsb' 8 8 = c := by
    rw [extractLsb'_append_octet _ _ 0, BitVec.extractLsb'_append_eq_right]
  have lane0 : (a ++ b ++ c ++ d).extractLsb' 0 8 = d := BitVec.extractLsb'_append_eq_right
  simp only [checksumBytes, List.cons.injEq, and_true]
  exact ⟨lane3, lane2, lane1, lane0⟩

/-- The octet of a bit in SBX's configuration: a tab for 1, a space for 0 (R54). -/
theorem symbol_sbx (d : Bool) : symbol sbx d = if d then 0x09 else 0x20 := rfl

/-- The lanes of a nibble's word, most-significant first, are the symbols of its bits from `n[3]` to `n[0]` (R140). -/
theorem checksumBytes_sym4 (n : Nibble) :
    checksumBytes (sym4 sbx n) = [if n.getLsbD 3 then 0x09 else 0x20, if n.getLsbD 2 then 0x09 else 0x20,
      if n.getLsbD 1 then 0x09 else 0x20, if n.getLsbD 0 then 0x09 else 0x20] := by
  simp only [sym4, checksumBytes_append, symbol_sbx]

/-- Settles O45: the command's run and the lanes of its word, and its words' fields. -/
theorem serNibExpands : Obligations.SerNibExpands := by
  refine ⟨fun n s hs => ⟨sym4 sbx n, (Runs.serNib n hs).exec_eq, ?_⟩, fun n => ?_, fun z n hz => ?_, rfl, rfl, rfl⟩
  · have lanes := checksumBytes_sym4 n
    simpa only [checksumBytes, List.cons.injEq, and_true] using lanes
  · exact (congrArg decode (append_zero_or_setWidth (0x7#4 ++ 0#4) n)).trans (decode_encode (.serNib n))
  · exact raisesIllegal_of_decode_eq_error (decode_append_nibble_eq_error (by simp) hz)

end Sys2Proof.Machine
end

section
/-! SUPPORT. What the host writes to and reads from the deserializer (42_deserializer.md): a packed bit, the report at a
count of accepted octets, the count that a text leaves in `bcnt`, and what `DES.END` finds. -/

namespace Sys2Proof.Machine

variable {s t : State}

/-- Packing moves the bits already there up by one and puts the new one below them (R166). -/
theorem extractLsb'_append_bit_eq_shiftLeft_or (x : Byte) (d : BitVec 1) :
    x.extractLsb' 0 7 ++ d = (x <<< 1) ||| d.setWidth 8 := by
  have low : d.setWidth 8 = 0#7 ++ d := by
    rw [BitVec.setWidth_eq_append (by omega)]
    simp
  rw [low, BitVec.shiftLeft_eq_concat_of_lt (by decide), BitVec.cast_eq, BitVec.or_append, BitVec.or_zero,
    BitVec.zero_or]

/-- The bit of an accepted octet is 1 for a tab (R160, R166). -/
theorem symbolBit_sbx_setWidth {c : Byte} (hc : c = 0x20 ∨ c = 0x09) :
    (symbolBit sbx c).setWidth 8 = if c = 0x09 then 1 else 0 := by
  obtain rfl | rfl := hc <;> rfl

/-- The next count of accepted bits, modulo 8 (R23). -/
theorem bcnt_add_one (n : BitVec 3) : n + 1 = BitVec.ofNat 3 ((n.toNat + 1) % 8) := by
  bv_omega

/-- The report where `bcnt` counts `n` accepted octets (R166, R168). -/
theorem State.packReport_of_bcnt {n : Nat} (h : s.bcnt = BitVec.ofNat 3 n) :
    s.packReport = if n % 8 = 4 then .nibh (s.sh.extractLsb' 0 4) else if n % 8 = 0 then .byte s.sh else .ack := by
  have four : s.bcnt = 4 ↔ n % 8 = 4 := by rw [h]; bv_omega
  have zero : s.bcnt = 0 ↔ n % 8 = 0 := by rw [h]; bv_omega
  simp only [State.packReport, four, zero]

/-- A `DES.SYM` on a fault-free machine raises nothing and counts its octet if accepted (R166). -/
theorem Runs.desSym_err_bcnt {c : Byte} (h : Runs (.desSym c) s t) (hs : s.err = 0) :
    t.err = 0 ∧ t.bcnt = if accepted sbx c then s.bcnt + 1 else s.bcnt := by
  cases h with
  | faulted _ h => exact absurd hs h
  | desSymAccepted _ hc => exact ⟨hs, (if_pos hc).symm⟩
  | desSymDropped _ hc => exact ⟨hs, by simp [hc]⟩

/-- The octets of a text raise nothing, and the accepted ones among them are counted in `bcnt` modulo 8 (R23, R166). -/
theorem runCmds_desSym_err_bcnt (text : List Byte) (hs : s.err = 0) :
    ∃ t rs, runCmds (text.map .desSym) s = some (t, rs) ∧ t.err = 0 ∧
      t.bcnt = s.bcnt + BitVec.ofNat 3 (text.filter (accepted sbx)).length := by
  induction text generalizing s with
  | nil => exact ⟨s, [], rfl, hs, by simp⟩
  | cons c text ih =>
    obtain ⟨u, first⟩ := exists_runs (.desSym c) s
    obtain ⟨hu, hub⟩ := first.desSym_err_bcnt hs
    obtain ⟨t, rs, hrun, ht, htb⟩ := ih hu
    refine ⟨t, _, by rw [List.map_cons, runCmds_cons _ first, hrun]; rfl, ht, ?_⟩
    rw [htb, hub]
    cases hc : accepted sbx c with
    | true =>
      rw [List.filter_cons_of_pos hc, List.length_cons, BitVec.ofNat_add, if_pos rfl, BitVec.add_assoc,
        BitVec.add_comm 1]
      rfl
    | false => rw [List.filter_cons_of_neg (by simp [hc])]; rfl

/-- The response of a `DES.SYM` after `n` accepted octets (R166, R168), by its kind. -/
theorem Runs.desSym_rspKind {c : Byte} {n : Nat} (h : Runs (.desSym c) s t) (hs : s.err = 0)
    (hn : s.bcnt = BitVec.ofNat 3 n) :
    t.rspKind = some (
      if accepted sbx c then (if (n + 1) % 8 = 4 then 2 else if (n + 1) % 8 = 0 then 3 else 0) else 0) := by
  cases h with
  | faulted _ h => exact absurd hs h
  | desSymAccepted _ hc =>
    have count : (s.noteOctet.noteAccepted.packBit (symbolBit sbx c)).bcnt = BitVec.ofNat 3 (n + 1) := by
      rw [BitVec.ofNat_add, ← hn]; rfl
    have kind : (s.accept (symbolBit sbx c)).rspKind =
        some (s.noteOctet.noteAccepted.packBit (symbolBit sbx c)).packReport.kind := rfl
    rw [kind, State.packReport_of_bcnt count, if_pos hc, apply_ite Rsp.kind, apply_ite Rsp.kind]
    rfl
  | desSymDropped _ hc => rw [hc]; rfl

/-- The data of a `BYTE` response has the byte's low nibble in its low bits (R168). -/
theorem State.rspData_low_of_byte {b : Byte} (h : s.rsp = some (.byte b)) :
    s.rspData.map (·.extractLsb' 0 4) = some (b.extractLsb' 0 4) := by
  rw [State.rspData, h]
  exact congrArg some (BitVec.extractLsb'_setWidth_of_le (by decide))

/-! What `DES.END` finds once an octet was accepted (R172), in its order. -/

theorem State.streamError_of_bcnt_mod_ne (ha : s.any = true) (hw : s.ws = true) (hb : s.bcnt.toNat % 4 ≠ 0) :
    s.streamError = some .invalidFormat := by
  simp [State.streamError, ha, hw, hb]

theorem State.streamError_of_bcnt_eq_four (ha : s.any = true) (hw : s.ws = true) (hb : s.bcnt = 4) :
    s.streamError = some .hexError := by
  simp [State.streamError, ha, hw, hb]

theorem State.streamError_of_bcnt_eq_zero (ha : s.any = true) (hw : s.ws = true) (hb : s.bcnt = 0) :
    s.streamError = none := by
  simp [State.streamError, ha, hw, hb]

end Sys2Proof.Machine
end

section
/-! The deserializer (42_deserializer.md): `DES.INIT`, `DES.SYM` and the phases of its responses, and `DES.END`. -/

namespace Sys2Proof.Machine

/-- Settles O47: the command's run and its words. -/
theorem desInitStarts : Obligations.DesInitStarts :=
  ⟨fun _ hs => (Runs.desInit hs).exec_eq, decode_encode .desInit, fun _ => raisesIllegal_of_arg_ne_zero (by simp)⟩

/-- Settles O48: the two runs of a `DES.SYM`, its words' fields, and the rule's example. -/
theorem desSymPacks : Obligations.DesSymPacks := by
  refine ⟨fun c s hs hc => ⟨_, rfl, ?_⟩, fun c s hs hspace htab => ?_, fun c => ?_, rfl, rfl⟩
  · rw [(Runs.desSymAccepted hs ((accepted_sbx_iff c).2 hc)).exec_eq, State.accept_eq,
      State.packReport_of_bcnt (bcnt_add_one s.bcnt), bcnt_add_one, extractLsb'_append_bit_eq_shiftLeft_or,
      symbolBit_sbx_setWidth hc, Nat.mod_mod]
  · have dropped : accepted sbx c = false :=
      Bool.eq_false_iff.2 fun hc => ((accepted_sbx_iff c).1 hc).elim hspace htab
    exact (Runs.desSymDropped hs dropped).exec_eq
  · exact (congrArg decode (append_zero_or_setWidth 0x9#4 c)).trans (decode_encode (.desSym c))

/-- Settles O49: after `DES.INIT` the text leaves its number of accepted octets in `bcnt`, and the next report is read
off that count. -/
theorem desSymPhases : Obligations.DesSymPhases := by
  intro s text c hs
  obtain ⟨t, rs, hrun, ht, htb⟩ := runCmds_desSym_err_bcnt (s := s.clearCodec.respond .ack) text hs
  obtain ⟨u, hu⟩ := exists_runs (.desSym c) t
  have count : t.bcnt = BitVec.ofNat 3 (text.filter (accepted sbx)).length := htb.trans (BitVec.zero_add _)
  refine ⟨t, _, u, runCmds_cons_of_runs (.desInit hs) rfl hrun, hu.exec_eq, ?_, fun b => State.rspData_low_of_byte⟩
  have kind := hu.desSym_rspKind ht count
  simp only [accepted_sbx_iff] at kind
  exact kind

/-- Settles O50: the five things `DES.END` can find, in their order, its words, and the rule's two examples. -/
theorem desEndTests : Obligations.DesEndTests :=
  ⟨fun _ hs ha => (Runs.desEndFails hs (State.streamError_of_any_eq_false ha)).exec_eq,
    fun _ hs ha hw => (Runs.desEndFails hs (State.streamError_of_ws_eq_false ha hw)).exec_eq,
    fun _ hs ha hw hb => (Runs.desEndFails hs (State.streamError_of_bcnt_mod_ne ha hw hb)).exec_eq,
    fun _ hs ha hw hb => (Runs.desEndFails hs (State.streamError_of_bcnt_eq_four ha hw hb)).exec_eq,
    fun _ hs ha hw hb => (Runs.desEndPasses hs (State.streamError_of_bcnt_eq_zero ha hw hb)).exec_eq,
    decode_encode .desEnd, fun _ => raisesIllegal_of_arg_ne_zero (by simp),
    ⟨_, _, rfl, rfl, rfl, rfl, rfl, rfl⟩, ⟨_, _, rfl, rfl, rfl⟩⟩

end Sys2Proof.Machine
end

section
/-! The system commands (43_system.md): `NOP` and `RST`. -/

namespace Sys2Proof.Machine

/-- A word the decoder refuses, in the fault state: the error is answered and nothing else changes (R79, R240). -/
theorem step_present_of_decode_eq_error_of_faulted {w : CmdWord} {s : State} (h : ∃ e, decode w = .error e)
    (hs : s.err ≠ 0) : step (s.present w) = .next (s.respond (.err s.err)) := by
  obtain ⟨-, outcome⟩ := illegalWords w
  obtain ⟨-, whenFaulted⟩ := outcome ((decode_eq_error_iff w).1 h) s
  exact whenFaulted hs

/-- Settles O53: the command's two runs, its words, and the clock that carries no command. -/
theorem nopDoesNothing : Obligations.NopDoesNothing := by
  refine ⟨fun s hs => (Runs.nop hs).exec_eq, fun s hs => exec_of_faulted (i := .nop) nofun hs, decode_encode .nop,
    fun a => raisesIllegal_of_arg_ne_zero (by simp), fun s c rest hin hr hv => ?_⟩
  have idle : step s = .next (State.idleClock { s with inputs := rest }) :=
    (step_clock hin).trans (clockEdge_idle _ hr hv)
  exact ⟨_, idle, ⟨⟨rfl, rfl, rfl⟩, ⟨rfl, rfl, rfl, rfl⟩, rfl⟩, rfl⟩

/-- Settles O54: the command's one run, whatever `err` holds, and the words of its operation that are not its word. -/
theorem rstResets : Obligations.RstResets := by
  refine ⟨fun s => (Runs.rst s).exec_eq, fun s => ?_, decode_encode .rst, fun a ha => ?_⟩
  · exact ⟨_, (Runs.rst s).exec_eq, ⟨⟨rfl, rfl, rfl⟩, ⟨rfl, rfl, rfl, rfl⟩, rfl⟩, rfl⟩
  · have refused : ∃ e, decode (0xF#4 ++ a) = .error e := decode_append_eq_error (.inr (.inl ⟨by simp, ha⟩))
    exact ⟨raisesIllegal_of_decode_eq_error refused,
      fun s hs => step_present_of_decode_eq_error_of_faulted refused hs⟩

end Sys2Proof.Machine
end

section
/-! SUPPORT. The fault state (60_exceptions.md): what a word and a clock do in it, and which command raises which
code. -/

namespace Sys2Proof.Machine

variable {i : Instr} {s t u : State} {w : CmdWord} {c : ClockIn} {e : ErrorKind}

/-! The eight registers under the operations on the ports and the two resets (R20, R45). -/

theorem SameRegs.refl (s : State) : SameRegs s s := ⟨⟨rfl, rfl, rfl⟩, ⟨rfl, rfl, rfl, rfl⟩, rfl⟩

@[simp] theorem sameRegs_respond_left (r : Rsp) : SameRegs (s.respond r) t ↔ SameRegs s t := .rfl

@[simp] theorem sameRegs_respond_right (r : Rsp) : SameRegs s (t.respond r) ↔ SameRegs s t := .rfl

theorem sameRegs_reset_clearAll (s : State) : SameRegs State.reset s.clearAll :=
  ⟨⟨rfl, rfl, rfl⟩, ⟨rfl, rfl, rfl, rfl⟩, rfl⟩

theorem sameRegs_reset_resetClock (s : State) : SameRegs State.reset s.resetClock :=
  ⟨⟨rfl, rfl, rfl⟩, ⟨rfl, rfl, rfl, rfl⟩, rfl⟩

theorem sameRegs_idleClock (s : State) : SameRegs s s.idleClock := ⟨⟨rfl, rfl, rfl⟩, ⟨rfl, rfl, rfl, rfl⟩, rfl⟩

/-! Words (R240). -/

theorem execWord_of_decode_eq_ok (s : State) (h : decode w = .ok i) : execWord w s = exec i s := by
  rw [execWord, h]

/-- The word of `RST` is executed whatever `err` holds (R192, R240). -/
theorem execWord_rst (s : State) : execWord 0xF00 s = .next (s.clearAll.respond .ack) :=
  (execWord_encode .rst s).trans (Runs.rst s).exec_eq

/-- In the fault state every word but that of `RST`, legal or not, answers the error and does nothing else (R240). -/
theorem execWord_of_faulted (hw : w ≠ 0xF00) (hs : s.err ≠ 0) : execWord w s = .next (s.respond (.err s.err)) := by
  obtain ⟨i, hd, hx⟩ | ⟨-, -, hx⟩ := execWord_cases w s
  · have hi : i ≠ .rst := fun hi => hw ((decode_eq_rst_iff w).1 (hi ▸ hd))
    exact hx.trans (exec_of_faulted hi hs)
  · exact hx.trans (congrArg _ (State.unlessFaulted_of_faulted _ hs))

/-- In the fault state a run without `RST` changes no register and answers the error word by word (R242). -/
theorem runWords_of_faulted {words : List CmdWord} {rs : List Rsp} (hw : ∀ w ∈ words, w ≠ 0xF00) (hs : s.err ≠ 0)
    (h : runWords words s = some (u, rs)) : SameRegs s u ∧ rs = List.replicate words.length (.err s.err) := by
  induction words generalizing s rs with
  | nil => cases h; exact ⟨.refl _, rfl⟩
  | cons w words ih =>
    obtain ⟨hw₀, hws⟩ := List.forall_mem_cons.1 hw
    obtain ⟨v, qs, hx, hrun, rfl⟩ := runWords_cons_eq_some h
    cases (execWord_of_faulted hw₀ hs).symm.trans hx
    obtain ⟨same, rfl⟩ := ih hws (s := s.respond (.err s.err)) hs hrun
    exact ⟨(sameRegs_respond_left _).1 same, rfl⟩

/-! Clocks (R40, R244). -/

/-- A clock that resets, by the port or by `RST`, puts every register at its reset value (R45, R192). -/
theorem clockEdge_of_resets (s : State) (h : c.rst = true ∨ (c.cmdValid = true ∧ c.cmd = 0xF00)) :
    ∃ t, clockEdge c s = .next t ∧ SameRegs State.reset t := by
  obtain ⟨-, hc⟩ | ⟨hr, hv, hc⟩ | ⟨hr, hv, -⟩ := clockEdge_cases c s
  · exact ⟨_, hc, sameRegs_reset_resetClock s⟩
  · have hw : c.cmd = 0xF00 := by simpa [hr, hv] using h
    exact ⟨_, hc.trans (hw ▸ execWord_rst s), (sameRegs_respond_right _).2 (sameRegs_reset_clearAll s)⟩
  · simp [hr, hv] at h

/-- In the fault state any other clock leaves every register as it is (R240, R244). -/
theorem clockEdge_of_faulted (hs : s.err ≠ 0) (h : ¬(c.rst = true ∨ (c.cmdValid = true ∧ c.cmd = 0xF00))) :
    ∃ t, clockEdge c s = .next t ∧ SameRegs s t := by
  obtain ⟨hr, -⟩ | ⟨-, hv, hc⟩ | ⟨-, -, hc⟩ := clockEdge_cases c s
  · exact absurd (.inl hr) h
  · exact ⟨_, hc.trans (execWord_of_faulted (fun hw => h (.inr ⟨hv, hw⟩)) hs), (sameRegs_respond_right _).2 (.refl s)⟩
  · exact ⟨_, hc, sameRegs_idleClock s⟩

/-! The codes that the tests raise (R128, R172, R232), and the order of the tests (R242). -/

theorem State.streamError_code (h : s.streamError = some e) : e.code = 8 ∨ e.code = 4 ∨ e.code = 2 := by
  obtain ⟨-, he⟩ | ⟨-, -, he⟩ | ⟨-, -, -, -, he⟩ | ⟨-, -, -, he⟩ | ⟨-, -, -, he⟩ := s.streamError_cases
  · cases he.symm.trans h; exact .inl rfl
  · cases he.symm.trans h; exact .inr (.inl rfl)
  · cases he.symm.trans h; exact .inr (.inl rfl)
  · cases he.symm.trans h; exact .inr (.inr rfl)
  · cases he.symm.trans h

theorem State.verifyError_code (h : s.verifyError = some e) : e.code = 7 ∨ e.code = 5 := by
  obtain ⟨-, he⟩ | ⟨-, -, he⟩ | ⟨-, -, he⟩ := s.verifyError_cases
  · cases he.symm.trans h; exact .inl rfl
  · cases he.symm.trans h; exact .inr rfl
  · cases he.symm.trans h

/-- A fault-free `DES.END` leaves the code of what its tests find, 0 if nothing (R172). -/
theorem Runs.desEnd_err (h : Runs .desEnd s t) (hs : s.err = 0) : t.err = s.streamError.elim 0 ErrorKind.code := by
  cases h with
  | faulted _ h => exact absurd hs h
  | desEndFails _ he => rw [he]; rfl
  | desEndPasses _ he => rw [he]; exact hs

/-- A fault-free `CRC.VFY` leaves the code of what its tests find, 0 if nothing (R128). -/
theorem Runs.crcVfy_err (h : Runs .crcVfy s t) (hs : s.err = 0) : t.err = s.verifyError.elim 0 ErrorKind.code := by
  cases h with
  | faulted _ h => exact absurd hs h
  | crcVfyFails _ he => rw [he]; rfl
  | crcVfyPasses _ he => rw [he]; exact hs

theorem State.streamError_elim_code (s : State) : s.streamError.elim 0 ErrorKind.code =
    if s.any = false then 8 else if s.ws = false then 4 else if s.bcnt.toNat % 4 ≠ 0 then 4
    else if s.bcnt = 4 then 2 else 0 := by
  unfold State.streamError
  split_ifs <;> rfl

theorem State.verifyError_elim_code (s : State) : s.verifyError.elim 0 ErrorKind.code =
    if s.expn ≠ 4 then 7 else if checksum sbx s.crc ≠ s.exp then 5 else 0 := by
  unfold State.verifyError
  split_ifs <;> rfl

/-- The commands that raise an error, with the codes that each raises (R232). -/
theorem Runs.raised_cases (h : Runs i s t) (hs : s.err = 0) (ht : t.err ≠ 0) :
    (∃ b, i = .expByte b ∧ t.err = 7) ∨ (i = .crcVfy ∧ (t.err = 7 ∨ t.err = 5)) ∨
      (i = .desEnd ∧ (t.err = 8 ∨ t.err = 4 ∨ t.err = 2)) := by
  cases h with
  | expByteFifth b => exact .inl ⟨b, rfl, rfl⟩
  | crcVfyFails _ he => exact .inr (.inl ⟨rfl, State.verifyError_code he⟩)
  | desEndFails _ he => exact .inr (.inr ⟨rfl, State.streamError_code he⟩)
  | rst => exact absurd rfl ht
  | faulted _ h => exact absurd hs h
  | _ => exact absurd hs ht

/-- No command raises `IllegalCommand` (R232). -/
theorem Runs.err_ne_illegalCommand (h : Runs i s t) (hs : s.err = 0) : t.err ≠ 0xF := by
  by_cases ht : t.err = 0
  · rw [ht]; decide
  obtain ⟨-, -, hc⟩ | ⟨-, hc | hc⟩ | ⟨-, hc | hc | hc⟩ := h.raised_cases hs ht <;> rw [hc] <;> decide

end Sys2Proof.Machine
end

section
/-! Exceptions (60_exceptions.md): the order of a step, the priority of errors, fault entry, who raises what, and the way
out of the fault state. -/

namespace Sys2Proof.Machine

/-- Settles O19: `RST` first, then the fault state, then the decoder's answer. -/
theorem stepOrder : Obligations.StepOrder := by
  refine fun s w => ⟨?_, fun hw hs => execWord_of_faulted hw hs, fun _ hs e he => ?_,
    fun _ _ i hi => execWord_of_decode_eq_ok s hi⟩
  · rintro rfl
    exact execWord_rst s
  · exact raisesIllegal_of_decode_eq_error ⟨e, he⟩ s hs

/-- Settles O20: the tests of the two commands in their order, the run in the fault state by induction on its words, and
the reset port's clock. -/
theorem firstErrorWins : Obligations.FirstErrorWins := by
  refine ⟨fun s hs => ?_, fun s hs => ?_, fun s t u w words rs hw _ _ ht h => runWords_of_faulted hw ht h,
    fun s c rest hin hr => (clockEdges s c rest hin).1 hr⟩
  · obtain ⟨t, h⟩ := exists_runs .desEnd s
    exact ⟨t, h.exec_eq, (h.desEnd_err hs).trans s.streamError_elim_code⟩
  · obtain ⟨t, h⟩ := exists_runs .crcVfy s
    exact ⟨t, h.exec_eq, (h.crcVfy_err hs).trans s.verifyError_elim_code⟩

/-- Settles O21: of the four things a word can do to `err`, only raising changes it to a code. -/
theorem faultEntry : Obligations.FaultEntry := by
  intro s t w h hne ht
  obtain ⟨-, h₀, -⟩ | ⟨-, -, rfl⟩ | ⟨-, hs, e, rfl⟩ | ⟨-, -, h₀, -⟩ := execWord_err_cases h
  · exact absurd h₀ ht
  · exact absurd rfl hne
  · exact ⟨hs, rfl, rfl, bne_iff_ne.2 ht, rfl, rfl⟩
  · exact absurd h₀ ht

/-- Settles O22: the raising runs with their codes, none of which is that of an illegal word. -/
theorem whoRaisesWhat : Obligations.WhoRaisesWhat := by
  refine ⟨fun i s t hs hx ht => ?_, fun w e he => raisesIllegal_of_decode_eq_error ⟨e, he⟩, fun w s t hs h hcode => ?_⟩
  · obtain ⟨b, rfl, hc⟩ | ⟨rfl, hc⟩ | ⟨rfl, hc⟩ := (exec_eq_next_iff.1 hx).raised_cases hs ht
    · exact hc
    · exact hc
    · exact hc
  · obtain ⟨i, -, hx⟩ | ⟨e, he, -⟩ := execWord_cases w s
    · have run : Runs i s t := exec_eq_next_iff.1 (hx.symm.trans h)
      exact absurd hcode (run.err_ne_illegalCommand hs)
    · exact ⟨e, he⟩

/-- Settles O23: the two kinds of clock in the fault state, and an illegal word after `RST`. -/
theorem wayOutOfFault : Obligations.WayOutOfFault := by
  refine ⟨fun s t c rest hs hin h => ?_, fun s t w e hx he => ?_⟩
  · rw [step_clock hin] at h
    split_ifs with resets
    · obtain ⟨u, hu, same⟩ := clockEdge_of_resets { s with inputs := rest } resets
      cases hu.symm.trans h
      exact same
    · obtain ⟨u, hu, same⟩ := clockEdge_of_faulted (s := { s with inputs := rest }) hs resets
      cases hu.symm.trans h
      exact same
  · cases (Runs.rst s).exec_eq.symm.trans hx
    exact ⟨_, raisesIllegal_of_decode_eq_error ⟨e, he⟩ _ rfl, rfl⟩

end Sys2Proof.Machine
end

section
/-! Reset (70_reset_and_hazards.md): the reset port. -/

namespace Sys2Proof.Machine

/-- The output ports in the reset state, whatever the host presents next: no response and no fault (R270). -/
theorem outputs_reset (inputs : List ClockIn) :
    State.rspValid { State.reset with inputs := inputs } = false ∧
      State.errO { State.reset with inputs := inputs } = 0 ∧
      State.faultO { State.reset with inputs := inputs } = false :=
  ⟨rfl, rfl, rfl⟩

/-- Settles O13: the port's clock leads to the reset state with the remaining inputs, whose registers and outputs are
known. -/
theorem resetPort : Obligations.ResetPort := by
  obtain ⟨⟨hcrc, hexp, hexpn, hsh, hbcnt, hany, hws, herr⟩, -⟩ := resetState
  refine ⟨fun s c rest hin hr => ?_, outputs_reset []⟩
  have resets : step s = .next { State.reset with inputs := rest } := (clockEdges s c rest hin).1 hr
  obtain ⟨hvalid, herrO, hfaultO⟩ := outputs_reset rest
  exact ⟨_, resets, hcrc, hexp, hexpn, hsh, hbcnt, hany, hws, herr, hvalid, herrO, hfaultO, rfl⟩

end Sys2Proof.Machine
end

section
/-! SUPPORT. The invariant `Inv` under each operation on the state, under a command, a word and a clock. -/

namespace Sys2Proof.Machine

variable {i : Instr} {s t : State} {w : CmdWord} {c : ClockIn}

/-- A response that is no `ERR` keeps the invariant. -/
theorem Inv.respond (h : Inv s) {r : Rsp} (hr : ∀ e, r ≠ .err e) : Inv (s.respond r) :=
  ⟨h.expn_le, h.exp_lt, h.ws_any, h.unaccepted, h.err_code, fun e he => absurd (Option.some.inj he) (hr e)⟩

/-- The answer of the fault state keeps the invariant (R240). -/
theorem Inv.respond_err (h : Inv s) (hs : s.err ≠ 0) : Inv (s.respond (.err s.err)) :=
  ⟨h.expn_le, h.exp_lt, h.ws_any, h.unaccepted, h.err_code, fun e he => by cases he; exact ⟨rfl, hs⟩⟩

/-- A fault entry with a code that SBX raises keeps the invariant (R236). -/
theorem Inv.raise (h : Inv s) {e : ErrorKind} (he : e.code ∈ raisableCodes) : Inv (s.raise e) :=
  ⟨h.expn_le, h.exp_lt, h.ws_any, h.unaccepted, he, fun e' he' => by cases he'; exact ⟨rfl, e.code_ne_zero⟩⟩

theorem Inv.setCrc (h : Inv s) (c : CrcWord) : Inv (s.setCrc c) :=
  ⟨h.expn_le, h.exp_lt, h.ws_any, h.unaccepted, h.err_code, h.rsp_err⟩

theorem Inv.startCrc (h : Inv s) : Inv s.startCrc :=
  ⟨by simp, by simp, h.ws_any, h.unaccepted, h.err_code, h.rsp_err⟩

theorem Inv.clearCodec (h : Inv s) : Inv s.clearCodec :=
  ⟨h.expn_le, h.exp_lt, by simp, by simp, h.err_code, h.rsp_err⟩

theorem Inv.noteOctet (h : Inv s) : Inv s.noteOctet :=
  ⟨h.expn_le, h.exp_lt, by simp, h.unaccepted, h.err_code, h.rsp_err⟩

/-- Packing a bit sets both flags, so nothing is asked of the codec registers. -/
theorem Inv.packBit (h : Inv s) (d : BitVec 1) : Inv (s.noteOctet.noteAccepted.packBit d) :=
  ⟨h.expn_le, h.exp_lt, by simp, by simp, h.err_code, h.rsp_err⟩

/-- A load adds one byte below the bytes already there (R124). -/
theorem State.loadExp_exp_toNat_le (s : State) (b : Byte) : (s.loadExp b).exp.toNat < (s.exp.toNat + 1) * 256 := by
  have low : s.exp.toNat % 2 ^ 24 ≤ s.exp.toNat := Nat.mod_le _ _
  have byte : b.toNat < 2 ^ 8 := b.isLt
  have sum : (s.loadExp b).exp.toNat = s.exp.toNat % 2 ^ 24 * 2 ^ 8 + b.toNat := by
    rw [State.loadExp_exp, BitVec.toNat_append, BitVec.extractLsb'_toNat, Nat.shiftRight_zero,
      ← Nat.shiftLeft_add_eq_or_of_lt byte, Nat.shiftLeft_eq]
  omega

/-- A load that `expn` has room for keeps the invariant (R22, R124). -/
theorem Inv.loadExp (h : Inv s) (hn : s.expn ≠ 4) (b : Byte) : Inv (s.loadExp b) := by
  have bound := h.expn_le
  have count : (s.expn + 1).toNat = s.expn.toNat + 1 := by bv_omega
  refine ⟨?_, ?_, h.ws_any, h.unaccepted, h.err_code, h.rsp_err⟩
  · rw [State.loadExp_expn, count]
    bv_omega
  · rw [State.loadExp_expn, count, pow_succ]
    exact (s.loadExp_exp_toNat_le b).trans_le (Nat.mul_le_mul_right 256 h.exp_lt)

/-- The reset registers have the invariant, under any response that is no `ERR`. -/
theorem inv_of_sameRegs_reset (h : SameRegs State.reset t) (hr : ∀ e, t.rsp ≠ some (.err e)) : Inv t := by
  obtain ⟨⟨-, hexp, hexpn⟩, ⟨hsh, hbcnt, hany, hws⟩, herr⟩ := h
  refine ⟨?_, ?_, ?_, fun _ => ⟨hsh, hbcnt⟩, ?_, fun e he => absurd he (hr e)⟩
  · rw [hexpn]; decide
  · rw [hexp, hexpn]; decide
  · rw [hws]; nofun
  · rw [herr]; decide

theorem State.packReport_ne_err (s : State) (e : ErrCode) : s.packReport ≠ .err e := by
  obtain ⟨-, hr⟩ | ⟨-, hr⟩ | ⟨-, -, hr⟩ := s.packReport_cases <;> rw [hr] <;> nofun

/-- The codes that the tests of `CRC.VFY` and `DES.END` find are codes that SBX raises (R232). -/
theorem State.verifyError_code_mem {e : ErrorKind} (h : s.verifyError = some e) : e.code ∈ raisableCodes := by
  obtain hc | hc := State.verifyError_code h <;> rw [hc] <;> decide

theorem State.streamError_code_mem {e : ErrorKind} (h : s.streamError = some e) : e.code ∈ raisableCodes := by
  obtain hc | hc | hc := State.streamError_code h <;> rw [hc] <;> decide

/-- Every command keeps the invariant. -/
theorem Runs.inv (h : Runs i s t) (hs : Inv s) : Inv t := by
  cases h with
  | rst => exact inv_of_sameRegs_reset (sameRegs_reset_clearAll s) nofun
  | faulted _ h => exact hs.respond_err h
  | nop | crcRd | serNib | crcVfyPasses => exact hs.respond nofun
  | crcInit => exact hs.startCrc.respond nofun
  | crcByte | crcNib => exact (hs.setCrc _).respond nofun
  | expByteFifth => exact hs.raise (by decide)
  | expByte b _ hn => exact (hs.loadExp hn b).respond nofun
  | crcVfyFails _ he => exact hs.raise (State.verifyError_code_mem he)
  | desInit | desEndPasses => exact hs.clearCodec.respond nofun
  | desSymAccepted => exact (hs.packBit _).respond (State.packReport_ne_err _)
  | desSymDropped => exact hs.noteOctet.respond nofun
  | desEndFails _ he => exact hs.raise (State.streamError_code_mem he)

/-- So does every word, an illegal one raising `IllegalCommand` (R79). -/
theorem Inv.execWord (hs : Inv s) (h : execWord w s = .next t) : Inv t := by
  obtain ⟨i, -, hx⟩ | ⟨e, -, hx⟩ := execWord_cases w s
  · exact (exec_eq_next_iff.1 (hx.symm.trans h)).inv hs
  · cases hx.symm.trans h
    obtain ⟨-, ht⟩ | ⟨hne, ht⟩ := s.illegalWord_cases <;> rw [ht]
    · exact hs.raise (by decide)
    · exact hs.respond_err hne

theorem Inv.idleClock (hs : Inv s) : Inv s.idleClock :=
  ⟨hs.expn_le, hs.exp_lt, hs.ws_any, hs.unaccepted, hs.err_code, nofun⟩

/-- And every clock (R40). -/
theorem Inv.clockEdge (hs : Inv s) (h : clockEdge c s = .next t) : Inv t := by
  obtain ⟨-, hc⟩ | ⟨-, -, hc⟩ | ⟨-, -, hc⟩ := clockEdge_cases c s
  · cases hc.symm.trans h
    exact inv_of_sameRegs_reset (sameRegs_reset_resetClock s) nofun
  · exact hs.execWord (hc.symm.trans h)
  · cases hc.symm.trans h
    exact hs.idleClock

/-- What the host presents next is not part of the invariant. -/
theorem Inv.withInputs (hs : Inv s) (inputs : List ClockIn) : Inv { s with inputs := inputs } :=
  ⟨hs.expn_le, hs.exp_lt, hs.ws_any, hs.unaccepted, hs.err_code, hs.rsp_err⟩

end Sys2Proof.Machine
end

section
/-! Invariants: every step keeps `Inv`, which holds right after reset and so of every reachable state. -/

namespace Sys2Proof.Machine

/-- Settles O27: the clock's three cases, and a command by the cases of `Runs`. -/
theorem stepKeepsInv : Obligations.StepKeepsInv := by
  intro s t hs h
  cases hin : s.inputs with
  | nil =>
    cases (step_idle hin).symm.trans h
    exact hs.idleClock
  | cons c rest => exact (hs.withInputs rest).clockEdge ((step_clock hin).symm.trans h)

/-- Settles O28: the registers are the reset values and there is no response. -/
theorem resetHasInv : Obligations.ResetHasInv := by
  have base : Inv State.reset := inv_of_sameRegs_reset (.refl _) nofun
  exact ⟨base, base.withInputs⟩

theorem Reachable.inv {s : State} (h : Reachable s) : Inv s := by
  obtain ⟨-, base⟩ := resetHasInv
  induction h with
  | reset inputs => exact base inputs
  | step _ h ih => exact stepKeepsInv _ _ ih h

/-- Settles O29: the excluded values are those outside `Inv`. -/
theorem reachableRegisters : Obligations.ReachableRegisters := by
  intro s hs
  have bound := hs.inv.expn_le
  have code := hs.inv.err_code
  refine ⟨by bv_omega, by bv_omega, by bv_omega, fun e he heq => ?_⟩
  have apart : ∀ e : ErrCode, e ∈ [1, 3, 6, 9, 10, 11, 12, 13, 14] → e ∉ raisableCodes := by decide
  exact apart e he (heq ▸ code)

end Sys2Proof.Machine
end

section
/-! SUPPORT. The assembler on the lines of commands (R81), the commands as a list, and the kinds of responses (R75). -/

namespace Sys2Proof

theorem toNat_ofNat_of_lt {w n : Nat} (h : n < 2 ^ w) : (BitVec.ofNat w n).toNat = n := by
  rw [BitVec.toNat_ofNat, Nat.mod_eq_of_lt h]

theorem ofNat_toNat_same {w : Nat} (b : BitVec w) : BitVec.ofNat w b.toNat = b := by
  rw [BitVec.ofNat_toNat, BitVec.setWidth_eq]

theorem Instr.operandBits_isSome (i : Instr) : i.mnemonic.operandBits.isSome = i.operand.isSome := by
  cases i <;> rfl

theorem Instr.line_wellFormed (i : Instr) : i.line.wellFormed = true := by
  cases i with
  | crcByte b => exact Laws.LineFits.crcByte b
  | crcNib n => exact Laws.LineFits.crcNib n
  | crcRd k => exact Laws.LineFits.crcRd k
  | expByte b => exact Laws.LineFits.expByte b
  | serNib n => exact Laws.LineFits.serNib n
  | desSym c => exact Laws.LineFits.desSym c
  | _ => rfl

end Sys2Proof

namespace Sys2Proof.Machine

/-- The operand of a command's line builds the command again. -/
theorem buildInstr_operand (i : Instr) : buildInstr i.mnemonic (i.operand.getD 0) = i := by
  cases i with
  | crcByte b | expByte b | desSym b => exact congrArg _ (ofNat_toNat_same b)
  | crcNib n | serNib n => exact congrArg _ (ofNat_toNat_same n)
  | crcRd k => exact congrArg _ (ofNat_toNat_same k)
  | _ => rfl

/-- A mnemonic that takes no operand, standing alone, is its command's line. -/
theorem line_buildInstr_none {m : Mnemonic} (h : m.operandBits = none) : (buildInstr m 0).line = ⟨m, none⟩ := by
  cases m with
  | crcByte | crcNib | crcRd | expByte | serNib | desSym => cases h
  | _ => rfl

/-- A mnemonic with an operand that fits is its command's line: nothing is truncated. -/
theorem line_buildInstr_some {m : Mnemonic} {bits n : Nat} (h : m.operandBits = some bits) (hn : n < 2 ^ bits) :
    (buildInstr m n).line = ⟨m, some n⟩ := by
  have kept : (BitVec.ofNat bits n).toNat = n := toNat_ofNat_of_lt hn
  cases m with
  | crcByte | crcNib | crcRd | expByte | serNib | desSym =>
    cases h
    exact congrArg (AsmLine.mk _ ∘ some) kept
  | _ => cases h

theorem assemble_line (i : Instr) : assemble i.line = .ok i := by
  have count : i.line.mnemonic.operandBits.isSome = i.line.operand.isSome := i.operandBits_isSome
  rw [assemble, if_neg (not_not_intro count), if_pos i.line_wellFormed]
  exact congrArg _ (buildInstr_operand i)

theorem line_of_assemble {l : AsmLine} {i : Instr} (h : assemble l = .ok i) : l = i.line := by
  obtain ⟨m, operand⟩ := l
  unfold assemble at h
  split_ifs at h with count fits
  cases Except.ok.inj h
  rw [not_not] at count
  cases hb : m.operandBits with
  | none =>
    cases operand with
    | none => exact (line_buildInstr_none hb).symm
    | some n => simp [hb] at count
  | some bits =>
    cases operand with
    | none => simp [hb] at count
    | some n =>
      have room : n < 2 ^ bits := by simpa [AsmLine.wellFormed, hb] using fits
      exact (line_buildInstr_some hb room).symm

/-- No response is of a reserved kind (R75). -/
theorem Rsp.kind_mem (r : Rsp) : r.kind ∈ [0, 1, 2, 3, 4, 7] := by
  cases r <;> simp [Rsp.kind]

/-- A command answers once and leaves what the host presents next (R11, R61). -/
theorem Runs.rsp_inputs {i : Instr} {s t : State} (h : Runs i s t) : (∃ r, t.rsp = some r) ∧ t.inputs = s.inputs := by
  cases h <;> exact ⟨⟨_, rfl⟩, rfl⟩

/-- So does a word, legal or not. -/
theorem execWord_rsp_inputs (w : CmdWord) (s : State) :
    ∃ t, execWord w s = .next t ∧ (∃ r, t.rsp = some r) ∧ t.inputs = s.inputs := by
  obtain ⟨i, -, hx⟩ | ⟨e, -, hx⟩ := execWord_cases w s
  · obtain ⟨t, run⟩ := exists_runs i s
    exact ⟨t, hx.trans run.exec_eq, run.rsp_inputs⟩
  · refine ⟨_, hx, ?_⟩
    obtain ⟨-, ht⟩ | ⟨-, ht⟩ := s.illegalWord_cases <;> rw [ht] <;> exact ⟨⟨_, rfl⟩, rfl⟩

end Sys2Proof.Machine

namespace Sys2Proof.Machine

theorem mnemonic_buildInstr (m : Mnemonic) (n : Nat) : (buildInstr m n).mnemonic = m := by cases m <;> rfl

/-- The commands of a mnemonic: one for each value of its operand. -/
def instrsOf (m : Mnemonic) : List Instr := (List.range (2 ^ m.operandBits.getD 0)).map (buildInstr m)

theorem mnemonic_of_mem_instrsOf {m : Mnemonic} {i : Instr} (h : i ∈ instrsOf m) : i.mnemonic = m := by
  obtain ⟨n, -, rfl⟩ := List.mem_map.1 h
  exact mnemonic_buildInstr m n

/-- Operands that fit make different commands. -/
theorem nodup_instrsOf (m : Mnemonic) : (instrsOf m).Nodup := by
  refine List.Nodup.map_on (fun n hn k hk heq => ?_) List.nodup_range
  rw [List.mem_range] at hn hk
  cases hb : m.operandBits with
  | none =>
    rw [hb, Option.getD_none] at hn hk
    omega
  | some bits =>
    rw [hb, Option.getD_some] at hn hk
    have lines := congrArg Instr.line heq
    rw [line_buildInstr_some hb hn, line_buildInstr_some hb hk] at lines
    exact Option.some.inj (congrArg AsmLine.operand lines)

theorem mem_instrsOf_mnemonic (i : Instr) : i ∈ instrsOf i.mnemonic := by
  refine List.mem_map.2 ⟨i.operand.getD 0, ?_, buildInstr_operand i⟩
  cases i with
  | crcByte b | crcNib b | crcRd b | expByte b | serNib b | desSym b => exact List.mem_range.2 b.isLt
  | _ => exact List.mem_range.2 Nat.one_pos

/-- Every command with every operand, once. -/
def allInstrs : List Instr := Mnemonic.all.flatMap instrsOf

theorem length_allInstrs : allInstrs.length = 810 := by
  simp [allInstrs, instrsOf, Mnemonic.all, Mnemonic.operandBits]

theorem mem_allInstrs (i : Instr) : i ∈ allInstrs :=
  List.mem_flatMap.2 ⟨i.mnemonic, i.mnemonic.mem_all, mem_instrsOf_mnemonic i⟩

theorem nodup_allInstrs : allInstrs.Nodup := by
  have distinct : Mnemonic.all.Pairwise (· ≠ ·) := by decide
  refine List.nodup_flatMap.2 ⟨fun m _ => nodup_instrsOf m, distinct.imp fun hne i hm hm' => hne ?_⟩
  exact (mnemonic_of_mem_instrsOf hm).symm.trans (mnemonic_of_mem_instrsOf hm')

theorem encode_injective : Function.Injective encode := fun i j h => by
  have decoded := congrArg decode h
  rwa [decode_encode, decode_encode, Except.ok.injEq] at decoded

theorem decode_toBool_iff (w : CmdWord) : (decode w).toBool = true ↔ ∃ i, w = encode i := by
  simp only [← decode_eq_ok_iff]
  cases decode w <;> simp [Except.toBool]

/-- The number is that of a legal word. -/
def isLegal (n : Nat) : Bool := (decode (BitVec.ofNat 12 n)).toBool

/-- The words that decode are the words of the commands, each once. -/
theorem legal_words_perm :
    ((List.range 4096).filter isLegal).Perm (allInstrs.map fun i => (encode i).toNat) := by
  refine (List.perm_ext_iff_of_nodup (List.nodup_range.filter _)
    (nodup_allInstrs.map (BitVec.toNat_injective.comp encode_injective))).2 fun n => ?_
  simp only [List.mem_filter, List.mem_range, List.mem_map, isLegal, decode_toBool_iff, mem_allInstrs, true_and]
  constructor
  · rintro ⟨hn, i, hi⟩
    exact ⟨i, (congrArg BitVec.toNat hi).symm.trans (toNat_ofNat_of_lt hn)⟩
  · rintro ⟨i, rfl⟩
    exact ⟨(encode i).isLt, i, ofNat_toNat_same (encode i)⟩

theorem length_filter_isLegal : ((List.range 4096).filter isLegal).length = 810 := by
  rw [legal_words_perm.length_eq, List.length_map, length_allInstrs]

theorem length_filter_not_isLegal : ((List.range 4096).filter fun n => !isLegal n).length = 3286 := by
  have rest {n a b : Nat} (sum : n = a + b) (hn : n = 4096) (ha : a = 810) : b = 3286 := by omega
  exact rest (List.length_eq_length_filter_add isLegal) List.length_range length_filter_isLegal

end Sys2Proof.Machine
end

section
/-! The encoding and the ports (30_encoding.md, 00_scope.md section 4): decoder and encoder, the count of the legal
words, the assembler, responses and steps. -/

namespace Sys2Proof.Machine

/-- Settles O4: each is the other's inverse. -/
theorem decodeEncodeAgree : Obligations.DecodeEncodeAgree :=
  ⟨decode_encode, fun _ _ => encode_of_decode⟩

/-- Settles O8: a command's line gives it back, and a line that is taken is its command's. -/
theorem assemblerExact : Obligations.AssemblerExact :=
  fun _ i => ⟨line_of_assemble, fun h => h ▸ assemble_line i⟩

/-- Settles O11: a word, legal or not, answers once. -/
theorem oneResponsePerStep : Obligations.OneResponsePerStep := by
  intro s w
  obtain ⟨t, hx, ⟨r, hr⟩, hin⟩ := execWord_rsp_inputs w s
  exact ⟨t, r, (step_present s w).trans hx, hr, r.kind_mem, hin⟩

/-- Settles O3: there are as many legal words as commands, and the rest of the 4096 are refused. -/
theorem legalWordCount : Obligations.LegalWordCount :=
  ⟨length_filter_isLegal, length_filter_not_isLegal⟩

/-- Settles O5: the decoder run on the ten words. -/
theorem sampleWords : Obligations.SampleWords :=
  ⟨rfl, rfl, rfl, rfl, rfl, rfl, rfl, rfl, rfl, rfl⟩

/-- Settles O7: kinds by definition, and zero-extension is zeros put above the value. -/
theorem responseCodes : Obligations.ResponseCodes := by
  have extended {n : Nat} (hn : n ≤ 32) (b : BitVec n) : b.setWidth (32 - n + n) = 0#(32 - n) ++ b := by
    rw [BitVec.setWidth_eq_append (by omega)]
    simp
  exact ⟨⟨rfl, rfl⟩, ⟨rfl, rfl⟩, fun n => ⟨rfl, extended (by decide) n⟩, fun b => ⟨rfl, extended (by decide) b⟩,
    fun d => ⟨rfl, rfl⟩, fun e => ⟨rfl, extended (by decide) e⟩⟩

/-- Settles O10: the clock takes its input off and executes the word, which is the command's. -/
theorem stepRunsDecoded : Obligations.StepRunsDecoded := by
  intro s w rest i hin hw
  rw [step_clock hin, clockEdge_command _ rfl rfl]
  exact execWord_of_decode_eq_ok _ hw

end Sys2Proof.Machine
end

section
/-! SUPPORT. The registers that each command writes (10_state.md section 2), and the two units' frames as
equivalences. -/

namespace Sys2Proof.Machine

variable {i : Instr} {s t u : State}

theorem SameCrc.symm (h : SameCrc s t) : SameCrc t s := by
  obtain ⟨hcrc, hexp, hexpn⟩ := h
  exact ⟨hcrc.symm, hexp.symm, hexpn.symm⟩

theorem SameCrc.trans (h : SameCrc s t) (h' : SameCrc t u) : SameCrc s u := by
  obtain ⟨hcrc, hexp, hexpn⟩ := h
  obtain ⟨hcrc', hexp', hexpn'⟩ := h'
  exact ⟨hcrc'.trans hcrc, hexp'.trans hexp, hexpn'.trans hexpn⟩

theorem SameCodec.symm (h : SameCodec s t) : SameCodec t s := by
  obtain ⟨hsh, hbcnt, hany, hws⟩ := h
  exact ⟨hsh.symm, hbcnt.symm, hany.symm, hws.symm⟩

theorem SameCodec.trans (h : SameCodec s t) (h' : SameCodec t u) : SameCodec s u := by
  obtain ⟨hsh, hbcnt, hany, hws⟩ := h
  obtain ⟨hsh', hbcnt', hany', hws'⟩ := h'
  exact ⟨hsh'.trans hsh, hbcnt'.trans hbcnt, hany'.trans hany, hws'.trans hws⟩

/-- The writers of `crc` (R21). -/
theorem Runs.crc_cases (h : Runs i s t) :
    t.crc = s.crc ∨ i = .crcInit ∨ (∃ b, i = .crcByte b) ∨ (∃ n, i = .crcNib n) ∨ i = .rst := by
  cases h with
  | rst | crcInit | crcByte | crcNib => simp
  | _ => exact .inl rfl

/-- The writers of `exp` and `expn` (R22). -/
theorem Runs.exp_cases (h : Runs i s t) :
    (t.exp = s.exp ∧ t.expn = s.expn) ∨ (∃ b, i = .expByte b) ∨ i = .crcInit ∨ i = .rst := by
  cases h with
  | rst | crcInit | expByte | expByteFifth => simp
  | _ => exact .inl ⟨rfl, rfl⟩

/-- The writers of `sh` and `bcnt` (R23). -/
theorem Runs.packer_cases (h : Runs i s t) :
    (t.sh = s.sh ∧ t.bcnt = s.bcnt) ∨ i = .desSym 0x20 ∨ i = .desSym 0x09 ∨ i = .desInit ∨
      (i = .desEnd ∧ t.rsp = some .pass) ∨ i = .rst := by
  obtain ⟨hsh, hbcnt, -⟩ | ⟨c, rfl, hc⟩ | ⟨c, -, hsh, hbcnt, -⟩ | others := h.codec_cases
  · exact .inl ⟨hsh, hbcnt⟩
  · obtain rfl | rfl := (accepted_sbx_iff c).1 hc
    · exact .inr (.inl rfl)
    · exact .inr (.inr (.inl rfl))
  · exact .inl ⟨hsh, hbcnt⟩
  · exact .inr (.inr (.inr others))

/-- The writers of `err` (R35, R232). -/
theorem Runs.err_writers (h : Runs i s t) (hne : t.err ≠ s.err) :
    (∃ b, i = .expByte b) ∨ i = .crcVfy ∨ i = .desEnd ∨ i = .rst := by
  obtain ⟨hi, -⟩ | ⟨-, -, rfl⟩ | ⟨-, hs, e, rfl⟩ | ⟨-, hs, ht, -⟩ := h.err_cases
  · exact .inr (.inr (.inr hi))
  · exact absurd rfl hne
  · obtain ⟨b, hi, -⟩ | ⟨hi, -⟩ | ⟨hi, -⟩ := h.raised_cases hs e.code_ne_zero
    · exact .inl ⟨b, hi⟩
    · exact .inr (.inl hi)
    · exact .inr (.inr (.inl hi))
  · exact absurd (ht.trans hs.symm) hne

theorem State.faultO_eq_true_iff (s : State) : s.faultO = true ↔ s.err ≠ 0 := bne_iff_ne

theorem State.faultO_eq_false_iff (s : State) : s.faultO = false ↔ s.err = 0 := bne_eq_false_iff_eq

end Sys2Proof.Machine
end

section
/-! The frame of the command set, the output `fault_o`, and the order of commands of different units. -/

namespace Sys2Proof.Machine

/-- Settles O17: register by register, the runs that leave it and those that do not. -/
theorem registerWriters : Obligations.RegisterWriters := by
  intro i s t hx
  have run := exec_eq_next_iff.1 hx
  obtain ⟨-, hin⟩ := run.rsp_inputs
  refine ⟨fun hne => run.crc_cases.resolve_left hne, fun hne => run.exp_cases.resolve_left ?_,
    fun hne => run.packer_cases.resolve_left ?_, run.err_writers, hin⟩
  · rintro ⟨hexp, hexpn⟩
    exact hne.elim (· hexp) (· hexpn)
  · rintro ⟨hsh, hbcnt⟩
    exact hne.elim (· hsh) (· hbcnt)

/-- Settles O24: the line is `err ≠ 0`; of the clocks in the fault state only a resetting one clears it; and a word's
response tells what it left in `err`. -/
theorem faultLine : Obligations.FaultLine := by
  refine ⟨State.faultO_eq_true_iff, fun s t hs h => ?_, fun s t w h => ?_⟩
  · rw [State.faultO_eq_true_iff] at hs
    rw [State.faultO_eq_false_iff]
    cases hin : s.inputs with
    | nil =>
      cases (step_idle hin).symm.trans h
      exact iff_of_false hs (by simp)
    | cons c rest =>
      simp only [List.cons.injEq, and_assoc, exists_and_left, exists_eq_left']
      rw [step_clock hin] at h
      by_cases resets : c.rst = true ∨ (c.cmdValid = true ∧ c.cmd = 0xF00)
      · obtain ⟨u, hu, -, -, herr⟩ := clockEdge_of_resets { s with inputs := rest } resets
        cases hu.symm.trans h
        exact iff_of_true herr resets
      · obtain ⟨u, hu, -, -, herr⟩ := clockEdge_of_faulted (s := { s with inputs := rest }) hs resets
        cases hu.symm.trans h
        exact iff_of_false (herr ▸ hs) resets
  · rw [State.faultO_eq_true_iff]
    obtain ⟨-, h₀, ha⟩ | ⟨-, hs, rfl⟩ | ⟨-, -, e, rfl⟩ | ⟨-, -, h₀, r, hr, hne⟩ := execWord_err_cases h
    · exact iff_of_false (not_not_intro h₀) (by simp [ha])
    · exact iff_of_true hs rfl
    · exact iff_of_true e.code_ne_zero rfl
    · exact iff_of_false (not_not_intro h₀) (by simp [hr, hne])

/-- Settles O26: each command is carried over to the machine that the other left, which agrees on its own unit and on
`err`. -/
theorem interleavingCommutes : Obligations.InterleavingCommutes := by
  intro i j s a b hi hj hs hxa hxb ha hb
  have runI := exec_eq_next_iff.1 hxa
  have runJ := exec_eq_next_iff.1 hxb
  have notCodec := Instr.isCodec_of_isCrc hi
  have notCrc := Instr.isCrc_of_isCodec hj
  have hir : i ≠ .rst := by rintro rfl; cases hi
  have hjr : j ≠ .rst := by rintro rfl; cases hj
  obtain ⟨c, runJ', sameCodec, hce, hcr⟩ := runJ.of_sameCodec hj (runI.sameCodec notCodec hir) (ha.trans hs.symm)
  obtain ⟨d, runI', sameCrc, hde, hdr⟩ := runI.of_sameCrc hi (runJ.sameCrc notCrc hjr) (hb.trans hs.symm)
  refine ⟨c, d, runJ'.exec_eq, runI'.exec_eq, ⟨?_, ?_, ?_⟩, hcr, hdr⟩
  · exact (runJ'.sameCrc notCrc hjr).symm.trans sameCrc
  · exact sameCodec.symm.trans (runI'.sameCodec notCodec hir)
  · rw [hde, hce, ha, hb]

end Sys2Proof.Machine
end

section
/-! SUPPORT. The checksum arithmetic (40_crc.md section 2): bit steps are linear, `k` of them consume `k` message bits
and shift the rest down, and for a polynomial with bit 31 set they lose nothing. -/

namespace Sys2Proof.Machine

variable (cfg : Config)

/-- What a bit step adds for the bit it shifts out (R102). -/
def feedback (d : Bool) : CrcWord := if d then cfg.crcPolyReflected else 0

theorem step1_eq (c : CrcWord) : step1 cfg c = (c >>> 1) ^^^ feedback cfg (c.getLsbD 0) := rfl

theorem feedback_xor (d e : Bool) : feedback cfg (d ^^ e) = feedback cfg d ^^^ feedback cfg e := by
  cases d <;> cases e <;> simp [feedback]

theorem step1_xor (a b : CrcWord) : step1 cfg (a ^^^ b) = step1 cfg a ^^^ step1 cfg b := by
  rw [step1_eq, BitVec.ushiftRight_xor_distrib, BitVec.getLsbD_xor, feedback_xor, step1_eq, step1_eq]
  ac_rfl

theorem stepk_succ (c : CrcWord) (k : Nat) : stepk cfg c (k + 1) = step1 cfg (stepk cfg c k) := rfl

theorem stepk_add (c : CrcWord) (k l : Nat) : stepk cfg c (k + l) = stepk cfg (stepk cfg c k) l := by
  induction l with
  | zero => rfl
  | succ l ih => rw [← Nat.add_assoc, stepk_succ, ih, stepk_succ]

theorem stepk_xor (a b : CrcWord) (k : Nat) : stepk cfg (a ^^^ b) k = stepk cfg a k ^^^ stepk cfg b k := by
  induction k with
  | zero => rfl
  | succ k ih => simp only [stepk_succ, ih, step1_xor]

theorem stepk_zero (k : Nat) : stepk cfg 0 k = 0 := by
  induction k with
  | zero => rfl
  | succ k ih =>
    rw [stepk_succ, ih]
    simp [step1]

/-! The bit stream (R110). -/

theorem updBits_append (c : CrcWord) (ds es : List Bool) :
    updBits cfg c (ds ++ es) = updBits cfg (updBits cfg c ds) es := List.foldl_append

/-- A bit step consumes the operand's bit 0 as a single-bit update and shifts the others down. -/
theorem step1_xor_eq_updBit (c x : CrcWord) : step1 cfg (c ^^^ x) = updBit cfg c (x.getLsbD 0) ^^^ (x >>> 1) := by
  have single (d : Bool) : step1 cfg ((BitVec.ofBool d).setWidth 32) = feedback cfg d := by
    cases d <;> simp [step1, feedback]
  rw [updBit, step1_xor, step1_xor, single, step1_eq cfg x]
  ac_rfl

/-- `k` bit steps consume the `k` lowest bits of the operand in order. -/
theorem stepk_xor_eq_updBits (c x : CrcWord) (k : Nat) :
    stepk cfg (c ^^^ x) k = updBits cfg c ((List.range k).map x.getLsbD) ^^^ (x >>> k) := by
  induction k with
  | zero => simp [stepk, updBits]
  | succ k ih =>
    have head : (x >>> k).getLsbD 0 = x.getLsbD k := by simp
    rw [stepk_succ, ih, step1_xor_eq_updBit, head, List.range_succ, List.map_append, updBits_append,
      BitVec.shiftRight_add]
    rfl

/-- An operand of `w` bits is consumed whole by `w` bit steps. -/
theorem stepk_xor_setWidth {w : Nat} (hw : w ≤ 32) (c : CrcWord) (x : BitVec w) :
    stepk cfg (c ^^^ x.setWidth 32) w = updBits cfg c ((List.range w).map x.getLsbD) := by
  have bits : (List.range w).map (x.setWidth 32).getLsbD = (List.range w).map x.getLsbD :=
    List.map_congr_left fun i hi => by
      have := List.mem_range.1 hi
      rw [BitVec.getLsbD_setWidth, decide_eq_true (by omega), Bool.true_and]
  have consumed : (x.setWidth 32) >>> w = 0 := by
    refine BitVec.eq_of_getLsbD_eq fun i _ => ?_
    rw [BitVec.getLsbD_ushiftRight, BitVec.getLsbD_setWidth, BitVec.getLsbD_of_ge x _ (by omega)]
    simp
  rw [stepk_xor_eq_updBits, bits, consumed]
  exact BitVec.xor_zero

theorem upd4_eq_updBits (c : CrcWord) (n : Nibble) : upd4 cfg c n = updBits cfg c (nibbleBits n) :=
  stepk_xor_setWidth cfg (by decide) c n

theorem upd8_eq_updBits (c : CrcWord) (b : Byte) : upd8 cfg c b = updBits cfg c (byteBits b) :=
  stepk_xor_setWidth cfg (by decide) c b

/-- A byte's bits are those of its low nibble and then those of its high one (R55). -/
theorem byteBits_append (hi lo : Nibble) : byteBits (hi ++ lo) = nibbleBits lo ++ nibbleBits hi := by
  have bit (i : Nat) : (hi ++ lo).getLsbD i = if i < 4 then lo.getLsbD i else hi.getLsbD (i - 4) :=
    BitVec.getLsbD_append
  simp only [byteBits, nibbleBits, List.range_succ, List.range_zero, List.nil_append, List.map_append, List.map_cons,
    List.map_nil, bit]
  rfl

theorem hiNibble_append_loNibble (b : Byte) : b.extractLsb' 4 4 ++ b.extractLsb' 0 4 = b := by
  rw [BitVec.extractLsb'_append_extractLsb'_eq_extractLsb' (by rfl)]
  simp

/-- Nibble by nibble, the low one first (R111). -/
theorem upd8_append (c : CrcWord) (hi lo : Nibble) : upd8 cfg c (hi ++ lo) = upd4 cfg (upd4 cfg c lo) hi := by
  rw [upd8_eq_updBits, byteBits_append, updBits_append, ← upd4_eq_updBits, ← upd4_eq_updBits]

/-! The table forms (R108). -/

/-- `k` bit steps look at the `k` lowest bits only; the others are shifted down. -/
theorem stepk_eq_shift_xor_low {k : Nat} (hk : k ≤ 32) (y : CrcWord) :
    stepk cfg y k = (y >>> k) ^^^ stepk cfg ((y.extractLsb' 0 k).setWidth 32) k := by
  have low : (List.range k).map (y.extractLsb' 0 k).getLsbD = (List.range k).map y.getLsbD :=
    List.map_congr_left fun i hi => by
      rw [BitVec.getLsbD_extractLsb', decide_eq_true (List.mem_range.1 hi), Nat.zero_add, Bool.true_and]
  have whole := stepk_xor_eq_updBits cfg 0 y k
  have part := stepk_xor_setWidth cfg hk 0 (y.extractLsb' 0 k)
  rw [show (0 : CrcWord) ^^^ y = y from BitVec.zero_xor] at whole
  rw [show (0 : CrcWord) ^^^ (y.extractLsb' 0 k).setWidth 32 = _ from BitVec.zero_xor] at part
  rw [whole, part, low, BitVec.xor_comm]

/-- The register's upper bits do not meet the operand. -/
theorem xor_setWidth_ushiftRight {w : Nat} (c : CrcWord) (x : BitVec w) : (c ^^^ x.setWidth 32) >>> w = c >>> w := by
  refine BitVec.eq_of_getLsbD_eq fun i _ => ?_
  rw [BitVec.getLsbD_ushiftRight, BitVec.getLsbD_xor, BitVec.getLsbD_setWidth, BitVec.getLsbD_of_ge x _ (by omega),
    Bool.and_false, Bool.xor_false, BitVec.getLsbD_ushiftRight]

/-! Nothing is lost where bit 31 of the polynomial is 1 (R103). -/

variable {cfg}

/-- The bit that `step1` shifts out is seen in bit 31 of the result. -/
theorem step1_eq_zero (hp : cfg.crcPolyReflected.getLsbD 31 = true) {c : CrcWord} (h : step1 cfg c = 0) : c = 0 := by
  rw [step1_eq] at h
  have low : c.getLsbD 0 = false := by
    by_contra hc
    rw [Bool.not_eq_false] at hc
    have top := congrArg (BitVec.getLsbD · 31) h
    rw [hc] at top
    rw [BitVec.getLsbD_xor, BitVec.getLsbD_ushiftRight, BitVec.getLsbD_of_ge c _ (by decide),
      show feedback cfg true = cfg.crcPolyReflected from rfl, hp] at top
    cases top
  have h : c >>> 1 = 0 := by
    rw [← h, low]
    exact BitVec.xor_zero.symm
  refine BitVec.eq_of_getLsbD_eq fun i _ => ?_
  cases i with
  | zero => exact low
  | succ i =>
    have bit := congrArg (BitVec.getLsbD · i) h
    rw [BitVec.getLsbD_ushiftRight, Nat.add_comm] at bit
    exact bit.trans (by simp)

theorem stepk_eq_zero (hp : cfg.crcPolyReflected.getLsbD 31 = true) {c : CrcWord} {k : Nat} (h : stepk cfg c k = 0) :
    c = 0 := by
  induction k with
  | zero => exact h
  | succ k ih => exact ih (step1_eq_zero hp h)

theorem stepk_injective (hp : cfg.crcPolyReflected.getLsbD 31 = true) (k : Nat) :
    Function.Injective fun c => stepk cfg c k := by
  intro a b h
  have difference : stepk cfg (a ^^^ b) k = 0 := by
    rw [stepk_xor, show stepk cfg a k = stepk cfg b k from h]
    exact BitVec.xor_self
  exact BitVec.xor_eq_zero_iff.1 (stepk_eq_zero hp difference)

theorem upd8_injective_register (hp : cfg.crcPolyReflected.getLsbD 31 = true) {c d : CrcWord} {b : Byte}
    (h : upd8 cfg c b = upd8 cfg d b) : c = d :=
  (BitVec.xor_left_inj _).1 (stepk_injective hp 8 h)

theorem upd8_injective_byte (hp : cfg.crcPolyReflected.getLsbD 31 = true) {c : CrcWord} {a b : Byte}
    (h : upd8 cfg c a = upd8 cfg c b) : a = b := by
  have wide : a.setWidth 32 = b.setWidth 32 := (BitVec.xor_right_inj _).1 (stepk_injective hp 8 h)
  simpa using congrArg (BitVec.setWidth 8) wide

theorem updBytes_append (c : CrcWord) (m n : List Byte) :
    updBytes cfg c (m ++ n) = updBytes cfg (updBytes cfg c m) n := List.foldl_append

theorem updBytes_cons (c : CrcWord) (b : Byte) (m : List Byte) :
    updBytes cfg c (b :: m) = updBytes cfg (upd8 cfg c b) m := rfl

theorem updBytes_injective_register (hp : cfg.crcPolyReflected.getLsbD 31 = true) (m : List Byte) {c d : CrcWord}
    (h : updBytes cfg c m = updBytes cfg d m) : c = d := by
  induction m generalizing c d with
  | nil => exact h
  | cons b m ih => exact upd8_injective_register hp (ih h)

/-- Messages that differ in one byte have different checksums (R113). -/
theorem crc32_ne_of_byte_ne (hp : cfg.crcPolyReflected.getLsbD 31 = true) (before after : List Byte) {a b : Byte}
    (h : a ≠ b) : crc32 cfg (before ++ a :: after) ≠ crc32 cfg (before ++ b :: after) := by
  intro heq
  have registers := (BitVec.xor_left_inj _).1 heq
  rw [updBytes_append, updBytes_append] at registers
  exact h (upd8_injective_byte hp (updBytes_injective_register hp after registers))

theorem flippedBit_ne (b : Byte) {j : Nat} (hj : j < 8) : b ^^^ (1#8 <<< j) ≠ b := by
  intro h
  have bit := congrArg (BitVec.getLsbD · j) h
  simp [hj] at bit

/-! The polynomial of D1: no register but 0 comes back to itself after one bit step, nor after `2 ^ j` of them. -/

theorem xor_xor_cancel_middle (a b c : CrcWord) : (a ^^^ b) ^^^ (b ^^^ c) = a ^^^ c := by
  rw [BitVec.xor_assoc, ← BitVec.xor_assoc b, BitVec.xor_self, BitVec.zero_xor]

/-- The XOR with the own bits `k` places up, done twice, is that with the bits `2 * k` places up. -/
theorem xor_ushiftRight_twice (c : CrcWord) (k : Nat) :
    (c ^^^ c >>> k) ^^^ (c ^^^ c >>> k) >>> k = c ^^^ c >>> (k + k) := by
  rw [BitVec.ushiftRight_xor_distrib, ← BitVec.shiftRight_add, xor_xor_cancel_middle]

/-- Each bit XORed with all those above it, by doubling the distance until nothing is left. -/
def xorAbove (q : CrcWord) : CrcWord := [1, 2, 4, 8, 16].foldl (fun v k => v ^^^ v >>> k) q

theorem xorAbove_xor_ushiftRight (c : CrcWord) : xorAbove (c ^^^ c >>> 1) = c := by
  have out : c >>> 32 = 0 := BitVec.ushiftRight_eq_zero (by decide)
  simp only [xorAbove, List.foldl, xor_ushiftRight_twice, Nat.reduceAdd, out]
  exact BitVec.xor_zero

theorem step1_sbx_fixed {c : CrcWord} (h : step1 sbx c = c) : c = 0 := by
  have added : c ^^^ c >>> 1 = feedback sbx (c.getLsbD 0) := by
    rw [step1_eq, BitVec.xor_comm] at h
    calc c ^^^ c >>> 1 = (feedback sbx (c.getLsbD 0) ^^^ c >>> 1) ^^^ (c >>> 1 ^^^ 0) := by
          rw [h]; exact congrArg _ BitVec.xor_zero.symm
      _ = feedback sbx (c.getLsbD 0) := by
          rw [xor_xor_cancel_middle]; exact BitVec.xor_zero
  have unique : c = xorAbove (feedback sbx (c.getLsbD 0)) := by
    rw [← added, xorAbove_xor_ushiftRight]
  cases low : c.getLsbD 0 with
  | true =>
    have other : (xorAbove (feedback sbx true)).getLsbD 0 = false := by decide
    rw [low] at unique
    cases low.symm.trans (unique ▸ other)
  | false => rw [unique, low]; decide

/-- In characteristic 2 the difference of `2 * k` bit steps and none is that of `k` and none, taken twice. -/
theorem stepk_sbx_fixed (j : Nat) {c : CrcWord} (h : stepk sbx c (2 ^ j) = c) : c = 0 := by
  induction j generalizing c with
  | zero => exact step1_sbx_fixed h
  | succ j ih =>
    have twice : stepk sbx (stepk sbx c (2 ^ j)) (2 ^ j) = c := by
      rw [← stepk_add, ← Nat.two_mul, ← Nat.pow_succ', h]
    have difference : stepk sbx (stepk sbx c (2 ^ j) ^^^ c) (2 ^ j) = stepk sbx c (2 ^ j) ^^^ c := by
      rw [stepk_xor, twice, BitVec.xor_comm]
    exact ih (BitVec.xor_eq_zero_iff.1 (ih difference))

end Sys2Proof.Machine
end

section
/-! The checksum arithmetic and its two commands (40_crc.md sections 1 to 3). -/

namespace Sys2Proof.Machine

/-- Settles O30: linearity by induction on the steps, and what is linear with kernel 0 on a finite set is a
bijection. -/
theorem bitStepsLinearBijective : Obligations.BitStepsLinearBijective :=
  fun cfg => ⟨stepk_xor cfg, stepk_zero cfg, fun hp k => Finite.injective_iff_bijective.1 (stepk_injective hp k)⟩

/-- Settles O31: `k` bit steps consume the `k` bits of the operand in order. -/
theorem updatesAreBitStreams : Obligations.UpdatesAreBitStreams :=
  fun cfg c => ⟨upd4_eq_updBits cfg c, upd8_eq_updBits cfg c⟩

/-- Settles O32: a byte's bit stream is that of its low nibble and then that of its high one. -/
theorem nibbleSerialIsByteSerial : Obligations.NibbleSerialIsByteSerial := by
  refine ⟨fun cfg c b => ⟨?_, (upd8_append cfg c _ _).symm⟩, fun s b hs => ?_⟩
  · rw [← upd8_append, hiNibble_append_loNibble]
  · have first := Runs.crcNib (loNibble b) hs
    have second := Runs.crcNib (s := (s.setCrc (upd4 sbx s.crc (loNibble b))).respond .ack) (hiNibble b) hs
    have both : upd4 sbx (upd4 sbx s.crc (loNibble b)) (hiNibble b) = upd8 sbx s.crc b := by
      rw [← upd8_append]
      exact congrArg _ (hiNibble_append_loNibble b)
    refine ⟨_, _, runCmds_cons_of_runs first rfl (runCmds_cons_of_runs second rfl rfl), (Runs.crcByte b hs).exec_eq, ?_⟩
    rw [← both]
    rfl

/-- Settles O33: bit steps look at the low bits and shift the others down; the sixteen values by evaluation. -/
theorem tableForms : Obligations.TableForms := by
  refine ⟨fun cfg c n => ?_, fun cfg c b => ?_, rfl⟩
  · rw [upd4, stepk_eq_shift_xor_low cfg (by decide), xor_setWidth_ushiftRight]
    rfl
  · rw [upd8, stepk_eq_shift_xor_low cfg (by decide), xor_setWidth_ushiftRight]
    rfl

/-- Settles O34: the four checksums by evaluation. -/
theorem checkValues : Obligations.CheckValues := by
  refine ⟨?_, rfl, ?_, rfl⟩ <;> simp [crc32, updBytes, upd8, stepk, step1, checksum, sbx]

/-- Settles O35: eight bit steps are `2 ^ 3` of them. -/
theorem zeroByteCounts : Obligations.ZeroByteCounts := by
  refine ⟨fun c hc h => hc (stepk_sbx_fixed 3 ?_), rfl⟩
  rw [upd8, show c ^^^ (0 : Byte).setWidth 32 = c from BitVec.xor_zero] at h
  exact h

/-- Settles O36: the flipped byte is another byte. -/
theorem singleBitErrorsDetected : Obligations.SingleBitErrorsDetected :=
  fun _ before after b _ hp hj => crc32_ne_of_byte_ne hp before after (flippedBit_ne b hj)

theorem upd8_eq_stepk (cfg : Config) (c : CrcWord) (b : Byte) : upd8 cfg c b = stepk cfg (c ^^^ (0#24 ++ b)) 8 := by
  rw [upd8, BitVec.setWidth_eq_append (by decide)]
  simp

theorem upd4_eq_stepk (cfg : Config) (c : CrcWord) (n : Nibble) : upd4 cfg c n = stepk cfg (c ^^^ (0#28 ++ n)) 4 := by
  rw [upd4, BitVec.setWidth_eq_append (by decide)]
  simp

/-- Settles O38: the command's run, its words, and the example. -/
theorem crcByteConsumes : Obligations.CrcByteConsumes := by
  refine ⟨fun b s hs => ?_, fun b => ?_, fun s hs hc => ?_⟩
  · rw [(Runs.crcByte b hs).exec_eq, upd8_eq_stepk]
    rfl
  · exact (congrArg decode (append_zero_or_setWidth 0x2#4 b)).trans (decode_encode (.crcByte b))
  · rw [(Runs.crcByte 0x2A hs).exec_eq, hc]
    rfl

/-- Settles O39: the command's run, its words and those with an illegal bit, and the example. -/
theorem crcNibConsumes : Obligations.CrcNibConsumes := by
  refine ⟨fun n s hs => ?_, fun n => ?_, fun z n hz => ?_, fun s hs hc => ?_⟩
  · rw [(Runs.crcNib n hs).exec_eq, upd4_eq_stepk]
    rfl
  · exact (congrArg decode (append_zero_or_setWidth (0x3#4 ++ 0#4) n)).trans (decode_encode (.crcNib n))
  · exact raisesIllegal_of_decode_eq_error (decode_append_nibble_eq_error (by simp) hz)
  · rw [(Runs.crcNib 0xA hs).exec_eq, hc]
    rfl

end Sys2Proof.Machine
end

section
/-! SUPPORT. Runs of commands (R11, R60): they always end, can be joined, and tell in their responses whether they
faulted. -/

namespace Sys2Proof.Machine

variable {c : Instr} {cs ds : List Instr} {s t u : State} {rs qs : List Rsp}

theorem runCmds_nil (s : State) : runCmds [] s = some (s, []) := rfl

theorem runCmds_cons_eq_some (h : runCmds (c :: cs) s = some (t, rs)) :
    ∃ v qs, Runs c s v ∧ runCmds cs v = some (t, qs) ∧ rs = v.rsp.toList ++ qs := by
  obtain ⟨v, qs, hx, hrun, hrs⟩ := runWords_cons_eq_some h
  exact ⟨v, qs, exec_eq_next_iff.1 ((execWord_encode c s).symm.trans hx), hrun, hrs⟩

theorem runCmds_append (h : runCmds cs s = some (t, rs)) (h' : runCmds ds t = some (u, qs)) :
    runCmds (cs ++ ds) s = some (u, rs ++ qs) := by
  induction cs generalizing s rs with
  | nil => cases h; exact h'
  | cons c cs ih =>
    obtain ⟨v, ps, first, hrun, rfl⟩ := runCmds_cons_eq_some h
    rw [List.cons_append, runCmds_cons _ first, ih hrun, List.append_assoc]
    rfl

theorem runCmds_singleton {r : Rsp} (h : Runs c s t) (hr : t.rsp = some r) : runCmds [c] s = some (t, [r]) :=
  runCmds_cons_of_runs h hr (runCmds_nil t)

theorem exists_runCmds (cs : List Instr) (s : State) : ∃ t rs, runCmds cs s = some (t, rs) := by
  induction cs generalizing s with
  | nil => exact ⟨s, [], rfl⟩
  | cons c cs ih =>
    obtain ⟨v, first⟩ := exists_runs c s
    obtain ⟨t, rs, hrun⟩ := ih v
    exact ⟨t, _, by rw [runCmds_cons cs first, hrun]; rfl⟩

/-- The words of commands without `RST` are not `0xF00`. -/
theorem encode_ne_rst_word (h : Instr.rst ∉ cs) : ∀ w ∈ cs.map encode, w ≠ 0xF00 := by
  simp only [List.forall_mem_map]
  intro c hc heq
  exact h (encode_injective (a₁ := c) (a₂ := .rst) heq ▸ hc)

/-- No run without `RST` leaves the fault state (R242). -/
theorem runCmds_err_eq_zero (hr : Instr.rst ∉ cs) (h : runCmds cs s = some (t, rs)) (ht : t.err = 0) : s.err = 0 := by
  by_contra hs
  exact hs ((runWords_err_of_faulted hs (encode_ne_rst_word hr) h).symm.trans ht)

/-- An `ERR` response carries a code, never 0 (R75). -/
theorem firstError_ne_zero {e : ErrCode} (h : runCmds cs s = some (t, rs)) (he : firstError rs = some e) : e ≠ 0 := by
  induction cs generalizing s rs with
  | nil => cases h; cases he
  | cons c cs ih =>
    obtain ⟨v, qs, first, hrun, rfl⟩ := runCmds_cons_eq_some h
    obtain ⟨⟨r, hr⟩, -⟩ := first.rsp_inputs
    rw [hr, Option.toList_some, List.singleton_append] at he
    by_cases hre : ∃ e', r = .err e'
    · obtain ⟨e', rfl⟩ := hre
      cases he
      have run : step (s.present (encode c)) = .next v :=
        (step_present s _).trans ((execWord_encode c s).trans first.exec_eq)
      obtain ⟨-, code⟩ := step_err_response run hr
      exact code
    · rw [firstError_cons_of_not_err qs fun e' he' => hre ⟨e', he'⟩] at he
      exact ih hrun he

/-- A run without `RST` from a fault-free machine either ends fault-free, with no `ERR` response, or in the fault state
with its code in the first one (R35, R242). -/
theorem firstError_of_runCmds (hr : Instr.rst ∉ cs) (hs : s.err = 0) (h : runCmds cs s = some (t, rs)) :
    (t.err = 0 ∧ firstError rs = none) ∨ (t.err ≠ 0 ∧ firstError rs = some t.err) := by
  have last := runWords_err_eq_firstError hs (encode_ne_rst_word hr) h
  cases he : firstError rs with
  | none => exact .inl ⟨by rw [last, he]; rfl, rfl⟩
  | some e =>
    rw [he, Option.getD_some] at last
    exact .inr ⟨last ▸ firstError_ne_zero h he, last ▸ rfl⟩

end Sys2Proof.Machine
end

section
/-! SUPPORT. Sessions of the CRC unit (40_crc.md section 4): the operands that a run gives it, the register after a
message, and the comparison with four received bytes. -/

namespace Sys2Proof.Machine

variable {c : Instr} {cs : List Instr} {s t : State} {rs : List Rsp}

/-- The message byte that a command gives the CRC unit. -/
def crcOperand : Instr → Option Byte
  | .crcByte b => some b
  | _ => none

/-- The received checksum's byte that a command gives the CRC unit. -/
def expOperand : Instr → Option Byte
  | .expByte b => some b
  | _ => none

/-- The received checksum after a load, as a value (R124). -/
def loadByte (x : CrcWord) (b : Byte) : CrcWord := x.extractLsb' 0 24 ++ b

theorem State.loadExp_exp_eq (s : State) (b : Byte) : (s.loadExp b).exp = loadByte s.exp b := rfl

/-- The commands that a session counts (R131): none restarts it, and none consumes part of a byte. -/
def KeepsSession (c : Instr) : Prop := c ≠ .crcInit ∧ c ≠ .rst ∧ ∀ n, c ≠ .crcNib n

/-- What a command of a session that raises nothing does to the CRC registers: it adds its operand, if it has one. -/
theorem Runs.session (h : Runs c s t) (hc : KeepsSession c) (ht : t.err = 0) :
    t.crc = updBytes sbx s.crc (crcOperand c).toList ∧ t.exp = (expOperand c).toList.foldl loadByte s.exp ∧
      t.expn = s.expn + BitVec.ofNat 3 (expOperand c).toList.length := by
  have none_loaded : s.expn = s.expn + BitVec.ofNat 3 0 := (BitVec.add_zero _).symm
  obtain ⟨not_init, not_rst, not_nib⟩ := hc
  cases h with
  | rst => exact absurd rfl not_rst
  | crcInit => exact absurd rfl not_init
  | crcNib n => exact absurd rfl (not_nib n)
  | faulted _ h => exact absurd ht h
  | crcByte b => exact ⟨rfl, rfl, none_loaded⟩
  | expByte b => exact ⟨rfl, rfl, rfl⟩
  | expByteFifth | crcVfyFails | desEndFails =>
    rw [State.raise_err] at ht
    exact absurd ht (ErrorKind.code_ne_zero _)
  | _ => exact ⟨rfl, rfl, none_loaded⟩

/-- The CRC registers after a session without a fault, by its operands in order (R131). -/
theorem runCmds_session (hcs : ∀ c ∈ cs, KeepsSession c) (h : runCmds cs s = some (t, rs)) (ht : t.err = 0) :
    t.crc = updBytes sbx s.crc (cs.filterMap crcOperand) ∧
      t.exp = (cs.filterMap expOperand).foldl loadByte s.exp ∧
      t.expn = s.expn + BitVec.ofNat 3 (cs.filterMap expOperand).length := by
  induction cs generalizing s rs with
  | nil => cases h; exact ⟨rfl, rfl, (BitVec.add_zero _).symm⟩
  | cons c cs ih =>
    obtain ⟨hc, hrest⟩ := List.forall_mem_cons.1 hcs
    obtain ⟨v, qs, first, hrun, -⟩ := runCmds_cons_eq_some h
    have no_rst : Instr.rst ∉ cs := fun hr => by
      obtain ⟨-, not_rst, -⟩ := hrest _ hr
      exact not_rst rfl
    have hv : v.err = 0 := runCmds_err_eq_zero no_rst hrun ht
    obtain ⟨hcrc, hexp, hexpn⟩ := first.session hc hv
    obtain ⟨hcrc', hexp', hexpn'⟩ := ih hrest hrun
    have split {α : Type} (f : Instr → Option α) :
        (c :: cs).filterMap f = (f c).toList ++ cs.filterMap f := by
      rw [List.filterMap_cons]
      cases f c <;> rfl
    refine ⟨?_, ?_, ?_⟩
    · rw [hcrc', hcrc, split, updBytes_append]
    · rw [hexp', hexp, split, List.foldl_append]
    · rw [hexpn', hexpn, split, List.length_append, BitVec.ofNat_add, BitVec.add_assoc]

/-- Four loads give the whole word, whatever was there (R52). -/
theorem foldl_loadByte_four (x : CrcWord) (b0 b1 b2 b3 : Byte) :
    [b0, b1, b2, b3].foldl loadByte x = b0 ++ b1 ++ b2 ++ b3 :=
  State.loadExp_four_exp { State.reset with exp := x } b0 b1 b2 b3

/-- Where four bytes are loaded, `CRC.VFY` passes exactly when they are the checksum (R128). -/
theorem exists_crcVfy_iff (hs : s.err = 0) (hn : s.expn = 4) :
    ∃ t, Runs .crcVfy s t ∧ (t.rsp = some .pass ↔ s.exp = checksum sbx s.crc) := by
  by_cases heq : checksum sbx s.crc = s.exp
  · exact ⟨_, .crcVfyPasses hs (State.verifyError_of_checksum_eq hn heq), iff_of_true rfl heq.symm⟩
  · exact ⟨_, .crcVfyFails hs (State.verifyError_of_checksum_ne hn heq), iff_of_false nofun fun h => heq h.symm⟩

/-- The `CRC.BYTE` commands of a message (R116). -/
theorem runCmds_crcBytes (m : List Byte) (hs : s.err = 0) :
    ∃ t, runCmds (crcBytes m) s = some (t, List.replicate m.length .ack) ∧
      t = { s with crc := updBytes sbx s.crc m, rsp := t.rsp } := by
  induction m generalizing s with
  | nil => exact ⟨s, rfl, rfl⟩
  | cons b m ih =>
    obtain ⟨t, hrun, ht⟩ := ih (s := (s.setCrc (upd8 sbx s.crc b)).respond .ack) hs
    exact ⟨t, runCmds_cons_of_runs (.crcByte b hs) rfl hrun, ht⟩

/-- The machine before the comparison of a session over `m`, with the received checksum `w`. -/
def State.received (s : State) (m : List Byte) (w : CrcWord) : State :=
  { s with crc := updBytes sbx sbx.crcInit m, exp := w, expn := 4, rsp := some .ack }

/-- The four bytes of a checksum put together again (R52). -/
theorem checksumBytes_join (w : CrcWord) :
    w.extractLsb' 24 8 ++ w.extractLsb' 16 8 ++ w.extractLsb' 8 8 ++ w.extractLsb' 0 8 = w := by
  rw [BitVec.extractLsb'_append_extractLsb'_eq_extractLsb' (by rfl),
    BitVec.extractLsb'_append_extractLsb'_eq_extractLsb' (by rfl),
    BitVec.extractLsb'_append_extractLsb'_eq_extractLsb' (by rfl)]
  simp

/-- `EXP.WORD w` from `expn = 0` loads `w` (R82, R124). -/
theorem runCmds_expWord (w : CrcWord) (hs : s.err = 0) (hn : s.expn = 0) :
    runCmds (expWord w) s = some ({ s with exp := w, expn := 4, rsp := some .ack }, List.replicate 4 .ack) := by
  have loads := runCmds_expByte_four hs hn (w.extractLsb' 24 8) (w.extractLsb' 16 8) (w.extractLsb' 8 8)
    (w.extractLsb' 0 8)
  rw [checksumBytes_join] at loads
  exact loads

/-- A session up to its comparison: `CRC.INIT`, the message, and the received checksum. -/
theorem runCmds_received (m : List Byte) (w : CrcWord) (hs : s.err = 0) :
    runCmds (Instr.crcInit :: (crcBytes m ++ expWord w)) s = some (s.received m w, List.replicate (m.length + 5) .ack) := by
  obtain ⟨t, hrun, ht⟩ := runCmds_crcBytes (s := s.startCrc.respond .ack) m hs
  have herr : t.err = 0 := by rw [ht]; exact hs
  have hexpn : t.expn = 0 := by rw [ht]; rfl
  have loads := runCmds_expWord w herr hexpn
  rw [show m.length + 5 = m.length + 4 + 1 from rfl, List.replicate_succ, List.replicate_add,
    runCmds_cons_of_runs (.crcInit hs) rfl (runCmds_append hrun loads), ht]
  rfl

/-- A whole session with its comparison, which answers `PASS` or `IntegrityError` (R128). -/
theorem runCmds_verify (m : List Byte) (w : CrcWord) (hs : s.err = 0) :
    ∃ t, runCmds (Instr.crcInit :: (crcBytes m ++ expWord w ++ [Instr.crcVfy])) s =
        some (t, List.replicate (m.length + 5) Rsp.ack ++ [if crc32 sbx m = w then Rsp.pass else Rsp.err 5]) ∧
      t.err = if crc32 sbx m = w then 0 else 5 := by
  have before := runCmds_received m w hs
  have hs' : (s.received m w).err = 0 := hs
  rw [← List.cons_append]
  split_ifs with heq
  · have vfy := Runs.crcVfyPasses hs' (State.verifyError_of_checksum_eq rfl heq)
    exact ⟨_, runCmds_append before (runCmds_singleton vfy rfl), hs⟩
  · have vfy := Runs.crcVfyFails hs' (State.verifyError_of_checksum_ne rfl heq)
    exact ⟨_, runCmds_append before (runCmds_singleton vfy rfl), rfl⟩

end Sys2Proof.Machine
end

section
/-! Sessions of the CRC unit (40_crc.md sections 2 and 4). -/

namespace Sys2Proof.Machine

/-- Settles O43: the registers by the session's operands, the reads of `CRC.SUM`, and the comparison. -/
theorem sessionResult : Obligations.SessionResult := by
  intro s t cs rs hs hcrc hexp hexpn hcs hrun ht m es
  obtain ⟨tcrc, texp, texpn⟩ := runCmds_session hcs hrun ht
  have sum : checksum sbx t.crc = crc32 sbx m := by
    rw [tcrc, hcrc]
    rfl
  refine ⟨sum, ⟨_, sum ▸ runCmds_crcSum ht, (sameRegs_respond_right _).2 (.refl t)⟩, fun e0 e1 e2 e3 hes => ?_⟩
  replace hes : cs.filterMap expOperand = [e0, e1, e2, e3] := hes
  have loaded : t.exp = e0 ++ e1 ++ e2 ++ e3 := by rw [texp, hes, foldl_loadByte_four]
  have count : t.expn = 4 := by rw [texpn, hes, hexpn]; rfl
  obtain ⟨v, run, hv⟩ := exists_crcVfy_iff ht count
  exact ⟨v, run.exec_eq, by rw [hv, loaded, sum]⟩

/-- Settles O44: the message's checksum is not the one received (R113), so the comparison fails. -/
theorem tamperDetected : Obligations.TamperDetected := by
  intro s before after b j hs hj
  have other := crc32_ne_of_byte_ne (cfg := sbx) (by decide) before after (flippedBit_ne b hj)
  have session := runCmds_verify (before ++ (b ^^^ (1#8 <<< j)) :: after) (crc32 sbx (before ++ b :: after)) hs
  rw [if_neg other, if_neg other] at session
  obtain ⟨t, hrun, ht⟩ := session
  refine ⟨t, _, hrun, ht, ?_⟩
  rw [List.length_append, List.length_cons]
  rfl

end Sys2Proof.Machine
end

section
/-! SUPPORT. The codec on whole bytes (41_serializer.md, 42_deserializer.md): the symbols of a byte, what the serializer
answers for a byte string, and what the deserializer answers for the symbols of a byte string. -/

namespace Sys2Proof.Machine

variable {s t : State}

/-- The symbols of a nibble, most-significant bit first (R140). -/
def nibbleSymbols (n : Nibble) : List Byte :=
  [symbol sbx (n.getLsbD 3), symbol sbx (n.getLsbD 2), symbol sbx (n.getLsbD 1), symbol sbx (n.getLsbD 0)]

/-- The symbols of a byte, high nibble first (R53, R144). -/
def byteSymbols (b : Byte) : List Byte := nibbleSymbols (hiNibble b) ++ nibbleSymbols (loNibble b)

/-- The symbols of a byte string, byte by byte (R56). -/
def symbolsOfBytes (bs : List Byte) : List Byte := bs.flatMap byteSymbols

/-- The word that `SER.NIB` answers has the nibble's symbols in its lanes (R76). -/
theorem checksumBytes_sym4_eq (n : Nibble) : checksumBytes (sym4 sbx n) = nibbleSymbols n := checksumBytes_sym4 n

theorem byteSymbols_eq_map (b : Byte) :
    byteSymbols b = (List.range 8).map fun i => if b.getLsbD (7 - i) then 0x09 else 0x20 := by
  have hi (i : Nat) (h : i < 4) : (hiNibble b).getLsbD i = b.getLsbD (4 + i) := by
    rw [hiNibble, BitVec.getLsbD_extractLsb', decide_eq_true h, Bool.true_and]
  have lo (i : Nat) (h : i < 4) : (loNibble b).getLsbD i = b.getLsbD i := by
    rw [loNibble, BitVec.getLsbD_extractLsb', decide_eq_true h, Bool.true_and, Nat.zero_add]
  simp only [byteSymbols, nibbleSymbols, hi, lo, Nat.reduceLT, symbol_sbx]
  rfl

theorem length_byteSymbols (b : Byte) : (byteSymbols b).length = 8 := rfl

theorem symbolsOfBytes_cons (b : Byte) (bs : List Byte) :
    symbolsOfBytes (b :: bs) = byteSymbols b ++ symbolsOfBytes bs := rfl

theorem symbolsOfBytes_append (bs cs : List Byte) :
    symbolsOfBytes (bs ++ cs) = symbolsOfBytes bs ++ symbolsOfBytes cs := List.flatMap_append

theorem length_symbolsOfBytes (bs : List Byte) : (symbolsOfBytes bs).length = 8 * bs.length := by
  induction bs with
  | nil => rfl
  | cons b bs ih => rw [symbolsOfBytes_cons, List.length_append, length_byteSymbols, ih, List.length_cons]; omega

/-! Responses one after another. -/

theorem bytesOf_append (rs qs : List Rsp) : bytesOf (rs ++ qs) = bytesOf rs ++ bytesOf qs := List.filterMap_append

theorem symbolsOf_append (rs qs : List Rsp) : symbolsOf (rs ++ qs) = symbolsOf rs ++ symbolsOf qs :=
  List.flatMap_append

/-! The serializer. -/

/-- The answers to `SER.BYTE` (R144). -/
def serByteRsps (b : Byte) : List Rsp := [.sym4 (sym4 sbx (hiNibble b)), .sym4 (sym4 sbx (loNibble b))]

theorem symbolsOf_serByteRsps (b : Byte) : symbolsOf (serByteRsps b) = byteSymbols b := by
  simp only [serByteRsps, symbolsOf, List.flatMap_cons, List.flatMap_nil, checksumBytes_sym4_eq, List.append_nil]
  rfl

theorem runCmds_serByte (b : Byte) (hs : s.err = 0) :
    ∃ t, runCmds (serByte b) s = some (t, serByteRsps b) ∧ SameRegs s t :=
  ⟨_, runCmds_cons_of_runs (.serNib (hiNibble b) hs) rfl (runCmds_singleton (.serNib (loNibble b) hs) rfl), .refl s⟩

theorem SameRegs.trans {u : State} (h : SameRegs s t) (h' : SameRegs t u) : SameRegs s u := by
  obtain ⟨hcrc, hcodec, herr⟩ := h
  obtain ⟨hcrc', hcodec', herr'⟩ := h'
  exact ⟨hcrc.trans hcrc', hcodec.trans hcodec', herr'.trans herr⟩

theorem SameRegs.err_eq (h : SameRegs s t) : t.err = s.err := by
  obtain ⟨-, -, herr⟩ := h
  exact herr

/-- The serializer answers the symbols of a byte string and changes no register (R140, R144). -/
theorem runCmds_serBytes (bs : List Byte) (hs : s.err = 0) :
    ∃ t rs, runCmds (serBytes bs) s = some (t, rs) ∧ SameRegs s t ∧ symbolsOf rs = symbolsOfBytes bs := by
  induction bs generalizing s with
  | nil => exact ⟨s, [], rfl, .refl s, rfl⟩
  | cons b bs ih =>
    obtain ⟨t, first, same⟩ := runCmds_serByte b hs
    obtain ⟨u, rs, hrun, same', symbols⟩ := ih (same.err_eq.trans hs)
    refine ⟨u, _, runCmds_append first hrun, same.trans same', ?_⟩
    rw [symbolsOf_append, symbols, symbolsOf_serByteRsps, symbolsOfBytes_cons]

/-! The deserializer on the symbols of a nibble and of a byte (R166). -/

theorem symbolBit_symbol (d : Bool) : symbolBit sbx (symbol sbx d) = BitVec.ofBool d := by cases d <;> rfl

theorem accepted_symbol (d : Bool) : accepted sbx (symbol sbx d) = true := by cases d <;> rfl

@[simp] theorem State.accept_err (s : State) (d : BitVec 1) : (s.accept d).err = s.err := rfl
@[simp] theorem State.accept_any (s : State) (d : BitVec 1) : (s.accept d).any = true := rfl
@[simp] theorem State.accept_ws (s : State) (d : BitVec 1) : (s.accept d).ws = true := rfl
@[simp] theorem State.accept_bcnt (s : State) (d : BitVec 1) : (s.accept d).bcnt = s.bcnt + 1 := rfl
@[simp] theorem State.accept_sh (s : State) (d : BitVec 1) : (s.accept d).sh = s.sh.extractLsb' 0 7 ++ d := rfl

/-- What an accepted bit answers, by the count before it (R166). -/
theorem State.accept_rsp {n : Nat} (hn : s.bcnt = BitVec.ofNat 3 n) (d : BitVec 1) :
    (s.accept d).rsp = some (if (n + 1) % 8 = 4 then .nibh ((s.accept d).sh.extractLsb' 0 4)
      else if (n + 1) % 8 = 0 then .byte (s.accept d).sh else .ack) := by
  have count : (s.noteOctet.noteAccepted.packBit d).bcnt = BitVec.ofNat 3 (n + 1) := by
    rw [BitVec.ofNat_add, ← hn]
    rfl
  exact congrArg some (State.packReport_of_bcnt count)

/-- A symbol's run on a fault-free machine. -/
theorem Runs.desSym_symbol (d : Bool) (hs : s.err = 0) :
    Runs (.desSym (symbol sbx d)) s (s.accept (BitVec.ofBool d)) :=
  symbolBit_symbol d ▸ .desSymAccepted hs (accepted_symbol d)

/-- The low bits of `sh` after a packed bit: the new bit, and above it the low bits before (R166). -/
theorem State.accept_sh_low (s : State) (d : BitVec 1) {n : Nat} (hn : n ≤ 7) :
    (s.accept d).sh.extractLsb' 0 (n + 1) = s.sh.extractLsb' 0 n ++ d := by
  rw [State.accept_sh]
  grind

/-- The machine after the four symbols of a nibble. -/
def State.acceptNibble (s : State) (n : Nibble) : State :=
  (((s.accept (BitVec.ofBool (n.getLsbD 3))).accept (BitVec.ofBool (n.getLsbD 2))).accept
    (BitVec.ofBool (n.getLsbD 1))).accept (BitVec.ofBool (n.getLsbD 0))

theorem State.acceptNibble_bcnt (s : State) (n : Nibble) : (s.acceptNibble n).bcnt = s.bcnt + 4 := by
  simp only [State.acceptNibble, State.accept_bcnt]
  bv_omega

theorem nibble_bits_append (n : Nibble) :
    BitVec.ofBool (n.getLsbD 3) ++ BitVec.ofBool (n.getLsbD 2) ++ BitVec.ofBool (n.getLsbD 1) ++
      BitVec.ofBool (n.getLsbD 0) = n := by
  revert n
  decide

/-- Four symbols move the low nibble of `sh` up and put theirs below it. -/
theorem State.acceptNibble_sh (s : State) (n : Nibble) : (s.acceptNibble n).sh = loNibble s.sh ++ n := by
  have regroup (x : Nibble) (d3 d2 d1 d0 : BitVec 1) : x ++ d3 ++ d2 ++ d1 ++ d0 = x ++ (d3 ++ d2 ++ d1 ++ d0) := by
    grind
  rw [State.acceptNibble, State.accept_sh, State.accept_sh_low (n := 6) _ _ (by decide),
    State.accept_sh_low (n := 5) _ _ (by decide), State.accept_sh_low (n := 4) _ _ (by decide)]
  exact (regroup _ _ _ _ _).trans (congrArg (loNibble s.sh ++ ·) (nibble_bits_append n))

theorem loNibble_append (hi lo : Nibble) : loNibble (hi ++ lo) = lo := BitVec.extractLsb'_append_eq_right

theorem State.accept_bcnt_ofNat {n : Nat} (hn : s.bcnt = BitVec.ofNat 3 n) (d : BitVec 1) :
    (s.accept d).bcnt = BitVec.ofNat 3 (n + 1) := by
  rw [State.accept_bcnt, hn, BitVec.ofNat_add]
  rfl

/-- A bit that completes no nibble is acknowledged. -/
theorem State.accept_rsp_ack {n : Nat} (hn : s.bcnt = BitVec.ofNat 3 n) (h : (n + 1) % 4 ≠ 0) (d : BitVec 1) :
    (s.accept d).rsp = some .ack := by
  rw [State.accept_rsp hn, if_neg (by omega), if_neg (by omega)]

/-- A symbol that completes no nibble, and then the rest. -/
theorem runCmds_symbol_ack {k : Nat} {d : Bool} {rest : List Instr} {rs : List Rsp} (hs : s.err = 0)
    (hb : s.bcnt = BitVec.ofNat 3 k) (hk : (k + 1) % 4 ≠ 0)
    (hrest : runCmds rest (s.accept (BitVec.ofBool d)) = some (t, rs)) :
    runCmds (.desSym (symbol sbx d) :: rest) s = some (t, .ack :: rs) :=
  runCmds_cons_of_runs (.desSym_symbol d hs) (State.accept_rsp_ack hb hk _) hrest

@[simp] theorem State.acceptNibble_err (s : State) (n : Nibble) : (s.acceptNibble n).err = s.err := by
  simp only [State.acceptNibble, State.accept_err]

@[simp] theorem State.acceptNibble_any (s : State) (n : Nibble) : (s.acceptNibble n).any = true := State.accept_any _ _

@[simp] theorem State.acceptNibble_ws (s : State) (n : Nibble) : (s.acceptNibble n).ws = true := State.accept_ws _ _

/-- The report of a nibble's last symbol, from a count that is whole nibbles (R166, R168): the nibble if it is the high
one of its byte, and the byte if it is the low one. -/
theorem State.acceptNibble_rsp {k : Nat} (n : Nibble) (hb : s.bcnt = BitVec.ofNat 3 k) (hk : k % 4 = 0) :
    (s.acceptNibble n).rsp = some (if k % 8 = 0 then .nibh n else .byte (loNibble s.sh ++ n)) := by
  have count : ((((s.accept (BitVec.ofBool (n.getLsbD 3))).accept (BitVec.ofBool (n.getLsbD 2))).accept
      (BitVec.ofBool (n.getLsbD 1)))).bcnt = BitVec.ofNat 3 (k + 3) :=
    State.accept_bcnt_ofNat (State.accept_bcnt_ofNat (State.accept_bcnt_ofNat hb _) _) _
  have whole := s.acceptNibble_sh n
  rw [State.acceptNibble] at whole ⊢
  rw [State.accept_rsp count, whole, ← loNibble, loNibble_append]
  by_cases high : k % 8 = 0
  · rw [if_pos high, if_pos (by omega)]
  · rw [if_neg high, if_neg (by omega), if_pos (by omega)]

/-- The symbols of a nibble, from a count that is whole nibbles. -/
theorem runCmds_nibbleSymbols {k : Nat} (n : Nibble) (hs : s.err = 0) (hb : s.bcnt = BitVec.ofNat 3 k)
    (hk : k % 4 = 0) :
    runCmds ((nibbleSymbols n).map .desSym) s = some (s.acceptNibble n,
      [.ack, .ack, .ack, if k % 8 = 0 then .nibh n else .byte (loNibble s.sh ++ n)]) := by
  have report := State.acceptNibble_rsp n hb hk
  rw [State.acceptNibble] at report ⊢
  have hb₁ := State.accept_bcnt_ofNat hb (BitVec.ofBool (n.getLsbD 3))
  have hb₂ := State.accept_bcnt_ofNat hb₁ (BitVec.ofBool (n.getLsbD 2))
  refine runCmds_symbol_ack hs hb (by omega) ?_
  refine runCmds_symbol_ack (by simpa) hb₁ (by omega) ?_
  refine runCmds_symbol_ack (by simpa) hb₂ (by omega) ?_
  exact runCmds_singleton (.desSym_symbol _ (by simpa)) report

/-- The machine after the eight symbols of a byte. -/
def State.acceptByte (s : State) (b : Byte) : State := (s.acceptNibble (hiNibble b)).acceptNibble (loNibble b)

/-- The answers to the symbols of a byte (R166). -/
def byteRsps (b : Byte) : List Rsp :=
  [.ack, .ack, .ack, .nibh (b.extractLsb' 4 4), .ack, .ack, .ack, .byte b]

@[simp] theorem State.acceptByte_err (s : State) (b : Byte) : (s.acceptByte b).err = s.err := by
  simp only [State.acceptByte, State.acceptNibble_err]

theorem State.acceptByte_bcnt (s : State) (b : Byte) : (s.acceptByte b).bcnt = s.bcnt := by
  rw [State.acceptByte, State.acceptNibble_bcnt, State.acceptNibble_bcnt]
  bv_omega

/-- The symbols of a byte give it back (R146). -/
theorem runCmds_byteSymbols (b : Byte) (hs : s.err = 0) (hb : s.bcnt = 0) :
    runCmds ((byteSymbols b).map .desSym) s = some (s.acceptByte b, byteRsps b) := by
  have mid : (s.acceptNibble (hiNibble b)).bcnt = BitVec.ofNat 3 4 := by
    rw [State.acceptNibble_bcnt, hb]
    rfl
  have high := runCmds_nibbleSymbols (k := 0) (hiNibble b) hs hb rfl
  have low := runCmds_nibbleSymbols (s := s.acceptNibble (hiNibble b)) (k := 4) (loNibble b) (by simpa) mid rfl
  have whole : loNibble (s.acceptNibble (hiNibble b)).sh ++ loNibble b = b := by
    rw [State.acceptNibble_sh, loNibble_append]
    exact hiNibble_append_loNibble b
  rw [whole] at low
  rw [byteSymbols, List.map_append]
  exact runCmds_append high low

/-- The symbols of a byte string give its bytes back in order (R146). -/
theorem runCmds_symbolsOfBytes (bs : List Byte) (hs : s.err = 0) (hb : s.bcnt = 0) :
    ∃ t rs, runCmds ((symbolsOfBytes bs).map .desSym) s = some (t, rs) ∧ bytesOf rs = bs ∧ t.err = 0 ∧ t.bcnt = 0 ∧
      (bs ≠ [] ∨ (s.any = true ∧ s.ws = true) → t.any = true ∧ t.ws = true) := by
  induction bs generalizing s with
  | nil => exact ⟨s, [], rfl, rfl, hs, hb, fun h => h.resolve_left (not_not_intro rfl)⟩
  | cons b bs ih =>
    have first := runCmds_byteSymbols b hs hb
    obtain ⟨t, rs, hrun, bytes, ht, htb, flags⟩ := ih (s := s.acceptByte b) (by simpa) ((s.acceptByte_bcnt b).trans hb)
    have set := flags (.inr ⟨State.acceptNibble_any _ _, State.acceptNibble_ws _ _⟩)
    refine ⟨t, byteRsps b ++ rs, ?_, ?_, ht, htb, fun _ => set⟩
    · rw [symbolsOfBytes_cons, List.map_append]
      exact runCmds_append first hrun
    · rw [bytesOf_append, bytes]
      rfl

/-- A whole session of the deserializer over the symbols of a byte string. -/
theorem runCmds_deserialize_symbols {bs : List Byte} (hbs : bs ≠ []) (hs : s.err = 0) :
    ∃ t rs, runCmds (deserializeCmds (symbolsOfBytes bs)) s = some (t, rs) ∧ bytesOf rs = bs ∧ t.err = 0 ∧
      t.rsp = some .pass := by
  obtain ⟨t, rs, hrun, bytes, ht, htb, flags⟩ := runCmds_symbolsOfBytes (s := s.clearCodec.respond .ack) bs hs rfl
  obtain ⟨hany, hws⟩ := flags (.inl hbs)
  have passes := Runs.desEndPasses ht (State.streamError_of_bcnt_eq_zero hany hws htb)
  refine ⟨_, _, runCmds_cons_of_runs (.desInit hs) rfl (runCmds_append hrun (runCmds_singleton passes rfl)), ?_, ht,
    rfl⟩
  rw [← List.singleton_append, bytesOf_append, bytesOf_append, bytes]
  exact List.append_nil bs

end Sys2Proof.Machine
end

section
/-! SUPPORT. The deserializer on any text (42_deserializer.md section 3): its registers and answers as functions of the
text's accepted octets. -/

namespace Sys2Proof.Machine

variable {s t u : State} {text f bytes : List Byte} {c : Byte} {presented : Bool}

/-- What a session of the deserializer holds and has answered, by whether an octet was presented and by the octets `f`
that it accepted. -/
structure Deserialized (presented : Bool) (f : List Byte) (t : State) (bytes : List Byte) : Prop where
  err : t.err = 0
  any : t.any = presented
  ws : t.ws = true ↔ f ≠ []
  bcnt : t.bcnt = BitVec.ofNat 3 f.length
  sh : ∀ i, i < 8 → i < f.length → f[f.length - 1 - i]?.map (· == 0x09) = some (t.sh.getLsbD i)
  length : bytes.length = f.length / 8
  bits : ∀ j i, j < f.length / 8 → i < 8 →
    bytes[j]?.map (·.getLsbD (7 - i)) = f[8 * j + i]?.map (· == 0x09)

/-- A dropped octet leaves all but `any` (R160). -/
theorem Deserialized.drop (h : Deserialized presented f t bytes) :
    Deserialized true f (t.noteOctet.respond .ack) bytes :=
  ⟨h.err, rfl, h.ws, h.bcnt, h.sh, h.length, h.bits⟩

/-- The bit of an accepted octet, below the bits before it (R166). -/
theorem State.accept_sh_getLsbD_zero (s : State) (hc : accepted sbx c = true) :
    (s.accept (symbolBit sbx c)).sh.getLsbD 0 = (c == 0x09) := by
  rw [State.accept_sh, BitVec.getLsbD_append]
  obtain rfl | rfl := (accepted_sbx_iff c).1 hc <;> rfl

theorem State.accept_sh_getLsbD_succ (s : State) (d : BitVec 1) {i : Nat} (hi : i < 7) :
    (s.accept d).sh.getLsbD (i + 1) = s.sh.getLsbD i := by
  rw [State.accept_sh, BitVec.getLsbD_append, if_neg (by omega), BitVec.getLsbD_extractLsb', Nat.add_sub_cancel,
    decide_eq_true hi, Bool.true_and, Nat.zero_add]

/-- After an accepted octet, too, `sh` holds the newest bits. -/
theorem Deserialized.accept_sh (h : Deserialized presented f t bytes) (hc : accepted sbx c = true) {i : Nat}
    (hi : i < 8) (hlen : i < f.length + 1) :
    (f ++ [c])[f.length - i]?.map (· == 0x09) = some ((t.accept (symbolBit sbx c)).sh.getLsbD i) := by
  cases i with
  | zero =>
    rw [State.accept_sh_getLsbD_zero t hc, Nat.sub_zero, List.getElem?_concat_length]
    rfl
  | succ i =>
    rw [State.accept_sh_getLsbD_succ _ _ (by omega), ← h.sh i (by omega) (by omega),
      List.getElem?_append_left (by omega), Nat.sub_sub, Nat.add_comm]

/-- What an accepted octet answers: the byte it completes, if it does (R166). -/
theorem Deserialized.accept_answer (h : Deserialized presented f t bytes) (d : BitVec 1) :
    bytesOf (t.accept d).rsp.toList = if (f.length + 1) % 8 = 0 then [(t.accept d).sh] else [] := by
  rw [State.accept_rsp h.bcnt]
  by_cases last : (f.length + 1) % 8 = 0
  · rw [if_neg (by omega), if_pos last, if_pos last]
    rfl
  · rw [if_neg last, if_neg last]
    split_ifs <;> rfl

/-- An accepted octet is packed, and the eighth of a byte answers it (R166). -/
theorem Deserialized.accept (h : Deserialized presented f t bytes) (hc : accepted sbx c = true) :
    Deserialized true (f ++ [c]) (t.accept (symbolBit sbx c))
      (bytes ++ bytesOf (t.accept (symbolBit sbx c)).rsp.toList) := by
  have length : (f ++ [c]).length = f.length + 1 := List.length_append
  have before := h.length
  constructor
  case err => exact h.err
  case any => rfl
  case ws => simp
  case bcnt => exact length ▸ State.accept_bcnt_ofNat h.bcnt _
  case sh =>
    rw [length]
    exact fun i hi hlen => h.accept_sh hc hi hlen
  case length =>
    rw [h.accept_answer, List.length_append, before, length]
    split_ifs with last <;> simp <;> omega
  case bits =>
    rw [h.accept_answer, length]
    intro j i hj hi
    by_cases old : j < f.length / 8
    · rw [List.getElem?_append_left (by omega), List.getElem?_append_left (by omega)]
      exact h.bits j i old hi
    · have last : (f.length + 1) % 8 = 0 := by omega
      have place : 8 * j + i = f.length - (7 - i) := by omega
      rw [if_pos last, place, h.accept_sh hc (by omega) (by omega), List.getElem?_append_right (by omega),
        show j - bytes.length = 0 by omega]
      rfl

/-- A fault-free `DES.SYM`, by its octet. -/
theorem Deserialized.desSym (h : Deserialized presented f t bytes) (run : Runs (.desSym c) t u) :
    Deserialized true (f ++ [c].filter (accepted sbx)) u (bytes ++ bytesOf u.rsp.toList) := by
  cases run with
  | faulted _ hs => exact absurd h.err hs
  | desSymAccepted _ hc => simpa [hc] using h.accept hc
  | desSymDropped _ hc => simpa [hc, bytesOf] using h.drop

/-- A session of the deserializer over any text, from cleared codec registers. -/
theorem exists_deserialized (text : List Byte) (h : Deserialized false [] s []) :
    ∃ t rs, runCmds (text.map .desSym) s = some (t, rs) ∧ SameCrc s t ∧
      Deserialized (decide (text ≠ [])) (text.filter (accepted sbx)) t (bytesOf rs) := by
  induction text using List.reverseRecOn with
  | nil => exact ⟨s, [], rfl, ⟨rfl, rfl, rfl⟩, h⟩
  | append_singleton text c ih =>
    obtain ⟨t, rs, hrun, same, ht⟩ := ih
    obtain ⟨u, run⟩ := exists_runs (.desSym c) t
    obtain ⟨⟨r, hr⟩, -⟩ := run.rsp_inputs
    have hu := ht.desSym run
    refine ⟨u, rs ++ [r], ?_, same.trans (run.sameCrc rfl nofun), ?_⟩
    · rw [List.map_append]
      exact runCmds_append hrun (runCmds_singleton run hr)
    · rw [hr] at hu
      rw [bytesOf_append, List.filter_append]
      simpa using hu

/-- `DES.INIT` starts such a session (R164). -/
theorem deserialized_clearCodec (hs : s.err = 0) : Deserialized false [] (s.clearCodec.respond .ack) [] :=
  ⟨hs, rfl, by simp, rfl, by simp, rfl, by simp⟩

/-! What `DES.END` finds after it (R172), by the number of accepted octets. -/

theorem Deserialized.streamError_of_none_accepted (h : Deserialized true f t bytes) (hf : f.length = 0) :
    t.streamError = some .invalidFormat := by
  have unaccepted : t.ws = false := by
    rw [← Bool.not_eq_true, h.ws, List.length_eq_zero_iff.1 hf]
    exact not_not_intro rfl
  exact State.streamError_of_ws_eq_false h.any unaccepted

theorem Deserialized.ws_of_accepted (h : Deserialized presented f t bytes) (hf : f.length ≠ 0) : t.ws = true :=
  h.ws.2 fun hnil => hf (hnil ▸ rfl)

theorem Deserialized.streamError_of_off_nibble (h : Deserialized true f t bytes) (hf : f.length % 4 ≠ 0) :
    t.streamError = some .invalidFormat := by
  refine State.streamError_of_bcnt_mod_ne h.any (h.ws_of_accepted (by omega)) ?_
  rw [h.bcnt, BitVec.toNat_ofNat]
  omega

theorem Deserialized.streamError_of_odd_nibbles (h : Deserialized true f t bytes) (hf : f.length % 8 = 4) :
    t.streamError = some .hexError := by
  refine State.streamError_of_bcnt_eq_four h.any (h.ws_of_accepted (by omega)) ?_
  rw [h.bcnt]
  bv_omega

theorem Deserialized.streamError_of_whole_bytes (h : Deserialized true f t bytes) (hpos : 0 < f.length)
    (hf : f.length % 8 = 0) : t.streamError = none := by
  refine State.streamError_of_bcnt_eq_zero h.any (h.ws_of_accepted (by omega)) ?_
  rw [h.bcnt]
  bv_omega

/-- The five ends of a session over a text, by its accepted octets, in the order of the tests (R172, R176). -/
theorem Deserialized.streamError_of_text
    (h : Deserialized (decide (text ≠ [])) (text.filter (accepted sbx)) t bytes) :
    (text = [] → t.streamError = some .emptyFile) ∧
      (text ≠ [] → (text.filter (accepted sbx)).length = 0 → t.streamError = some .invalidFormat) ∧
      ((text.filter (accepted sbx)).length % 4 ≠ 0 → t.streamError = some .invalidFormat) ∧
      ((text.filter (accepted sbx)).length % 8 = 4 → t.streamError = some .hexError) ∧
      (0 < (text.filter (accepted sbx)).length → (text.filter (accepted sbx)).length % 8 = 0 →
        t.streamError = none) := by
  have presented (hne : text ≠ []) : Deserialized true (text.filter (accepted sbx)) t bytes := by
    rwa [decide_eq_true hne] at h
  have nonempty (hf : (text.filter (accepted sbx)).length ≠ 0) : text ≠ [] := by
    rintro rfl
    exact hf rfl
  refine ⟨fun hnil => State.streamError_of_any_eq_false (by rw [h.any]; simpa using hnil),
    fun hne => (presented hne).streamError_of_none_accepted, fun hf => ?_, fun hf => ?_, fun hpos => ?_⟩
  · exact (presented (nonempty (by omega))).streamError_of_off_nibble hf
  · exact (presented (nonempty (by omega))).streamError_of_odd_nibbles hf
  · exact (presented (nonempty (by omega))).streamError_of_whole_bytes hpos

/-- The answer of a fault-free `DES.END` (R172). -/
theorem Runs.desEnd_rsp (run : Runs .desEnd t u) (ht : t.err = 0) :
    u.rsp = some (t.streamError.elim .pass fun e => .err e.code) := by
  cases run with
  | faulted _ hs => exact absurd ht hs
  | desEndFails _ he => rw [he]; rfl
  | desEndPasses _ he => rw [he]; rfl

end Sys2Proof.Machine
end

section
/-! The codec (41_serializer.md section 3, 42_deserializer.md section 3). -/

namespace Sys2Proof.Machine

/-- Settles O46: the symbols byte by byte. -/
theorem serializerLength : Obligations.SerializerLength := by
  intro s bs hs
  obtain ⟨t, rs, hrun, same, symbols⟩ := runCmds_serBytes bs hs
  refine ⟨t, rs, hrun, same, ?_, by rw [symbols, length_symbolsOfBytes]⟩
  rw [symbols, symbolsOfBytes, funext byteSymbols_eq_map]

/-- Settles O51: the session's registers by its accepted octets, and what `DES.END` finds in them. -/
theorem deserializerAgreesWithBatch : Obligations.DeserializerAgreesWithBatch := by
  intro s text hs
  obtain ⟨t, rs, hrun, same, ht⟩ := exists_deserialized text (deserialized_clearCodec hs)
  obtain ⟨u, run⟩ := exists_runs .desEnd t
  have answer := run.desEnd_rsp ht.err
  obtain ⟨empty, unaccepted, offNibble, oddNibbles, whole⟩ := ht.streamError_of_text
  exact ⟨t, .ack :: rs, u, runCmds_cons_of_runs (.desInit hs) rfl hrun, same, ht.err, run.exec_eq, ht.length, ht.bits,
    fun hnil => by rw [answer, empty hnil]; rfl, fun hne hf => by rw [answer, unaccepted hne hf]; rfl,
    fun hf => by rw [answer, offNibble hf]; rfl, fun hf => by rw [answer, oddNibbles hf]; rfl,
    fun hpos hf => by rw [answer, whole hpos hf]; rfl⟩

/-- Settles O52: the symbols of a byte give it back, and so by induction those of a byte string. -/
theorem codecRoundTrip : Obligations.CodecRoundTrip := by
  refine ⟨fun s s' b hs hs' => ?_, fun s s' bs hs hs' hbs => ?_⟩
  · obtain ⟨t, hrun, -⟩ := runCmds_serByte b hs
    have back := runCmds_byteSymbols (s := s'.clearCodec.respond .ack) b hs' rfl
    refine ⟨t, _, _, hrun, ?_, State.acceptByte_bcnt (s'.clearCodec.respond .ack) b⟩
    rw [symbolsOf_serByteRsps]
    exact runCmds_cons_of_runs (.desInit hs') rfl back
  · obtain ⟨t, rs, hrun, -, symbols⟩ := runCmds_serBytes bs hs
    obtain ⟨u, rs', hrun', bytes, -, hpass⟩ := runCmds_deserialize_symbols hbs hs'
    exact ⟨t, rs, u, rs', hrun, symbols ▸ hrun', bytes, hpass⟩

end Sys2Proof.Machine
end

section
/-! SUPPORT. The host's sessions (45_frame_protocol.md): how each ends, and that it leaves the machine fault-free. -/

namespace Sys2Proof.Machine

variable {c : Instr} {cs : List Instr} {s t : State} {rs : List Rsp} {α β : Type}

/-- A run that does not fault is a session with its responses. -/
theorem hostSession_of_fault_free_run (hr : Instr.rst ∉ cs) (hs : s.err = 0) (h : runCmds cs s = some (t, rs))
    (ht : t.err = 0) : hostSession cs s = (t, .ok rs) := by
  obtain ⟨-, none⟩ | ⟨hne, -⟩ := firstError_of_runCmds hr hs h
  · obtain ⟨ended, -⟩ := hostSession_of_run h
    exact ended none
  · exact absurd ht hne

/-- A run that faults is a session that ends in its error, with the registers reset (R215). -/
theorem hostSession_of_faulting_run (hr : Instr.rst ∉ cs) (hs : s.err = 0) (h : runCmds cs s = some (t, rs))
    (ht : t.err ≠ 0) : ∃ u : State, hostSession cs s = (u.clearAll.respond .ack, hostError t.err) := by
  obtain ⟨hz, -⟩ | ⟨-, first⟩ := firstError_of_runCmds hr hs h
  · exact absurd hz ht
  · obtain ⟨-, failed⟩ := hostSession_of_run h
    exact failed _ first

/-- A machine found in the fault state answers the first command with its error (R240). -/
theorem hostSession_of_faulted (cs : List Instr) (hc : c ≠ .rst) (hs : s.err ≠ 0) :
    hostSession (c :: cs) s = (s.clearAll.respond .ack, hostError s.err) :=
  hostSession_error (t := s.respond (.err s.err)) cs ((execWord_encode c s).trans (exec_of_faulted hc hs)) rfl

/-- However a session ends, it leaves the machine fault-free, if it began so or issued a command at all. -/
theorem hostSession_err (hr : Instr.rst ∉ cs) (h : s.err = 0 ∨ cs ≠ []) : (hostSession cs s).1.err = 0 := by
  by_cases hs : s.err = 0
  · obtain ⟨t, rs, hrun⟩ := exists_runCmds cs s
    by_cases ht : t.err = 0
    · rw [hostSession_of_fault_free_run hr hs hrun ht]
      exact ht
    · obtain ⟨u, hu⟩ := hostSession_of_faulting_run hr hs hrun ht
      rw [hu]
      rfl
  · cases cs with
    | nil => exact absurd rfl (h.resolve_left hs)
    | cons c cs =>
      rw [hostSession_of_faulted cs (fun hc => hr (hc ▸ List.mem_cons_self)) hs]
      rfl

/-- A failure is final (R215). -/
theorem hostBind_err {r : State × HostResult α} {f : State → α → State × HostResult β} (hr : r.1.err = 0)
    (hf : ∀ t a, t.err = 0 → (f t a).1.err = 0) : (hostBind r f).1.err = 0 := by
  obtain ⟨t, a | e | _⟩ := r
  · exact hf t a hr
  · exact hr
  · exact hr

/-! The host's four sequences hold no `RST`. -/

theorem rst_notMem_checksumCmds (enc : List Byte) : Instr.rst ∉ checksumCmds enc := by
  simp [checksumCmds, crcBytes, crcSum]

theorem rst_notMem_serBytes (bs : List Byte) : Instr.rst ∉ serBytes bs := by
  simp [serBytes, serByte]

theorem rst_notMem_deserializeCmds (text : List Byte) : Instr.rst ∉ deserializeCmds text := by
  simp [deserializeCmds]

theorem rst_notMem_verifyCmds (d : List Byte) : Instr.rst ∉ verifyCmds d := by
  simp [verifyCmds, crcBytes, -List.map_take, -List.map_drop]

/-! The encoder and the decoder as their sessions in order (R205, R210). -/

variable {key plain enc text : List Byte} {salt : Vector Byte 8}

/-- The encoder after its first session. -/
def serializeFrame (enc : List Byte) (salt : Vector Byte 8) (t : State) (rs : List Rsp) :
    State × HostResult (List Byte) :=
  hostBind (hostSession (serBytes (enc ++ bytesOf rs ++ salt.toList)) t) fun u rs' => (u, .ok (symbolsOf rs'))

/-- The decoder after its first session. -/
def verifyFrame (key : List Byte) (t : State) (rs : List Rsp) : State × HostResult (List Byte) :=
  if (bytesOf rs).length ≤ 12 then (t, .failed .invalidFormat)
  else hostBind (hostSession (verifyCmds (bytesOf rs)) t) fun u _ => (u, recover key (bytesOf rs))

theorem hostEncrypt_eq (s : State) (henc : encryptedPayload key salt.toList plain = some enc) :
    hostEncrypt key salt plain s = hostBind (hostSession (checksumCmds enc) s) (serializeFrame enc salt) := by
  simp only [hostEncrypt, henc]
  rfl

theorem hostDecrypt_eq (text : List Byte) (s : State) (hkey : key ≠ []) :
    hostDecrypt key text s = hostBind (hostSession (deserializeCmds text) s) (verifyFrame key) := if_neg hkey

theorem serializeFrame_err (enc : List Byte) (salt : Vector Byte 8) (rs : List Rsp) (ht : t.err = 0) :
    (serializeFrame enc salt t rs).1.err = 0 :=
  hostBind_err (hostSession_err (rst_notMem_serBytes _) (.inl ht)) fun _ _ hu => hu

theorem verifyFrame_err (key : List Byte) (rs : List Rsp) (ht : t.err = 0) : (verifyFrame key t rs).1.err = 0 := by
  unfold verifyFrame
  split_ifs
  · exact ht
  · exact hostBind_err (hostSession_err (rst_notMem_verifyCmds _) (.inl ht)) fun _ _ hu => hu

/-! The cipher (R202, R203). -/

/-- With a non-empty key, data of one length meet one key stream. -/
theorem exists_keyStream (hkey : key ≠ []) (n : Nat) :
    ∃ ext : List Byte, ext.length = n ∧
      ∀ data : List Byte, data.length = n → cipher key data = some (List.zipWith (· ^^^ ·) data ext) := by
  cases key with
  | nil => exact absurd rfl hkey
  | cons k ks =>
    obtain ⟨ext, hext, hlen⟩ := extendKey_cons k ks n
    exact ⟨ext, hlen, fun data hdata => by rw [cipher, hdata, hext]; rfl⟩

theorem zipWith_xor_xor {data ext : List Byte} (h : ext.length = data.length) :
    List.zipWith (· ^^^ ·) (List.zipWith (· ^^^ ·) data ext) ext = data :=
  List.ext_getElem (by simp [h]) fun i _ _ => by simp

/-- The cipher is its own inverse and keeps the length (R203). -/
theorem exists_cipher (hkey : key ≠ []) (data : List Byte) :
    ∃ out, cipher key data = some out ∧ out.length = data.length ∧ cipher key out = some data := by
  obtain ⟨ext, hext, hcipher⟩ := exists_keyStream hkey data.length
  have hlen : (List.zipWith (· ^^^ ·) data ext).length = data.length := by simp [hext]
  exact ⟨_, hcipher data rfl, hlen, by rw [hcipher _ hlen, zipWith_xor_xor hext]⟩

/-- The encrypted payload of a plaintext, which the same key deciphers. -/
theorem exists_encryptedPayload (hkey : key ≠ []) (salt : Vector Byte 8) (plain : List Byte) :
    ∃ enc, encryptedPayload key salt.toList plain = some enc ∧ enc.length = plain.length + 8 ∧
      cipher key enc = some (plain ++ salt.toList) := by
  obtain ⟨enc, henc, hlen, hback⟩ := exists_cipher hkey (plain ++ salt.toList)
  exact ⟨enc, henc, by simpa using hlen, hback⟩

/-! What the encoder makes (R201, R205). -/

/-- The bytes of a frame: the encrypted payload, its received checksum, the salt. -/
def frameBytes (enc : List Byte) (w : CrcWord) (salt : Vector Byte 8) : List Byte :=
  enc ++ checksumBytes w ++ salt.toList

theorem length_frameBytes (enc : List Byte) (w : CrcWord) (salt : Vector Byte 8) :
    (frameBytes enc w salt).length = enc.length + 12 := by
  simp [frameBytes, checksumBytes]

theorem bytesOf_acks (n : Nat) : bytesOf (List.replicate n .ack) = [] := by
  simp [bytesOf]

theorem bytesOf_map_byte (bs : List Byte) : bytesOf (bs.map .byte) = bs := by
  simp [bytesOf, List.filterMap_map]

/-- The encoder's first session reads the payload's checksum. -/
theorem runCmds_checksumCmds (enc : List Byte) (hs : s.err = 0) :
    ∃ t rs, runCmds (checksumCmds enc) s = some (t, rs) ∧ t.err = 0 ∧ bytesOf rs = checksumBytes (crc32 sbx enc) := by
  obtain ⟨t, hrun, ht⟩ := runCmds_crcBytes (s := s.startCrc.respond .ack) enc hs
  have herr : t.err = 0 := by rw [ht]; exact hs
  have sum : checksum sbx t.crc = crc32 sbx enc := by rw [ht]; rfl
  have reads := runCmds_crcSum herr
  rw [sum] at reads
  refine ⟨_, _, runCmds_cons_of_runs (.crcInit hs) rfl (runCmds_append hrun reads), herr, ?_⟩
  rw [← List.singleton_append, bytesOf_append, bytesOf_append, bytesOf_acks, bytesOf_map_byte]
  rfl

/-- The encoder gives the symbols of the frame. -/
theorem hostEncrypt_of_payload (hs : s.err = 0) (henc : encryptedPayload key salt.toList plain = some enc) :
    ∃ u, hostEncrypt key salt plain s = (u, .ok (symbolsOfBytes (frameBytes enc (crc32 sbx enc) salt))) := by
  obtain ⟨t, rs, hrun, ht, bytes⟩ := runCmds_checksumCmds enc hs
  obtain ⟨u, rs', hrun', same, symbols⟩ := runCmds_serBytes (frameBytes enc (crc32 sbx enc) salt) ht
  have hu : u.err = 0 := same.err_eq.trans ht
  refine ⟨u, ?_⟩
  rw [hostEncrypt_eq s henc, hostSession_of_fault_free_run (rst_notMem_checksumCmds enc) hs hrun ht, hostBind_ok,
    serializeFrame, bytes, ← frameBytes, hostSession_of_fault_free_run (rst_notMem_serBytes _) ht hrun' hu, hostBind_ok,
    symbols]

/-! What the decoder makes of the symbols of a frame (R210 to R213). -/

theorem frameBytes_payload (enc : List Byte) (w : CrcWord) (salt : Vector Byte 8) :
    (frameBytes enc w salt).take ((frameBytes enc w salt).length - 12) = enc := by
  rw [length_frameBytes, Nat.add_sub_cancel, frameBytes, List.append_assoc, List.take_left]

theorem frameBytes_checksum (enc : List Byte) (w : CrcWord) (salt : Vector Byte 8) :
    ((frameBytes enc w salt).drop ((frameBytes enc w salt).length - 12)).take 4 = checksumBytes w := by
  rw [length_frameBytes, Nat.add_sub_cancel, frameBytes, List.append_assoc, List.drop_left]
  exact List.take_left (l₁ := checksumBytes w)

theorem verifyCmds_frameBytes (enc : List Byte) (w : CrcWord) (salt : Vector Byte 8) :
    verifyCmds (frameBytes enc w salt) = Instr.crcInit :: (crcBytes enc ++ expWord w ++ [Instr.crcVfy]) := by
  rw [verifyCmds, frameBytes_payload, frameBytes_checksum]
  rfl

/-- The decoder's first session gives the frame's bytes back, and its second compares the checksums. -/
theorem exists_verify_of_symbols (hkey : key ≠ []) (hs : s.err = 0) (henc : enc ≠ []) (w : CrcWord)
    (salt : Vector Byte 8) :
    ∃ t u rs, t.err = 0 ∧ runCmds (verifyCmds (frameBytes enc w salt)) t = some (u, rs) ∧
      u.err = (if crc32 sbx enc = w then 0 else 5) ∧
      hostDecrypt key (symbolsOfBytes (frameBytes enc w salt)) s =
        hostBind (hostSession (verifyCmds (frameBytes enc w salt)) t)
          fun u _ => (u, recover key (frameBytes enc w salt)) := by
  have long : 12 < (frameBytes enc w salt).length := by
    have := List.length_pos_iff.2 henc
    rw [length_frameBytes]
    omega
  have nonempty : frameBytes enc w salt ≠ [] := by
    intro h
    simp [h] at long
  obtain ⟨t, rs, hrun, bytes, ht, -⟩ := runCmds_deserialize_symbols nonempty hs
  obtain ⟨u, hrun', hu⟩ := runCmds_verify enc w ht
  rw [← verifyCmds_frameBytes enc w salt] at hrun'
  refine ⟨t, u, _, ht, hrun', hu, ?_⟩
  rw [hostDecrypt_eq _ s hkey, hostSession_of_fault_free_run (rst_notMem_deserializeCmds _) hs hrun ht, hostBind_ok,
    verifyFrame, bytes, if_neg (Nat.not_le.2 long)]

/-- A frame whose checksum matches is recovered with whatever key is given. -/
theorem hostDecrypt_of_match {payload : List Byte} (hkey : key ≠ []) (hs : s.err = 0) (henc : 8 ≤ enc.length)
    (salt : Vector Byte 8) (hpayload : cipher key enc = some payload) :
    ∃ u, hostDecrypt key (symbolsOfBytes (frameBytes enc (crc32 sbx enc) salt)) s =
      (u, .ok (payload.take (enc.length - 8))) := by
  have nonempty : enc ≠ [] := List.length_pos_iff.1 (by omega)
  obtain ⟨t, u, rs, ht, hrun, hu, eq⟩ := exists_verify_of_symbols hkey hs nonempty (crc32 sbx enc) salt
  rw [if_pos rfl] at hu
  refine ⟨u, ?_⟩
  rw [eq, hostSession_of_fault_free_run (rst_notMem_verifyCmds _) ht hrun hu, hostBind_ok, recover, frameBytes_payload,
    hpayload, length_frameBytes, if_neg (by omega), show enc.length + 12 - 20 = enc.length - 8 by omega]

/-- A frame whose checksum does not match fails with `IntegrityError`, whatever key is given. -/
theorem hostDecrypt_of_mismatch {w : CrcWord} (hkey : key ≠ []) (hs : s.err = 0) (henc : enc ≠ [])
    (salt : Vector Byte 8) (hw : crc32 sbx enc ≠ w) :
    ∃ u, hostDecrypt key (symbolsOfBytes (frameBytes enc w salt)) s = (u, .failed .integrityError) ∧
      SameRegs State.reset u := by
  obtain ⟨t, u, rs, ht, hrun, hu, eq⟩ := exists_verify_of_symbols hkey hs henc w salt
  rw [if_neg hw] at hu
  obtain ⟨v, hv⟩ := hostSession_of_faulting_run (rst_notMem_verifyCmds _) ht hrun (by rw [hu]; decide)
  refine ⟨v.clearAll.respond .ack, ?_, (sameRegs_respond_right _).2 (sameRegs_reset_clearAll v)⟩
  rw [eq, hv, hu]
  exact congrArg (hostBind · _) (congrArg _ (hostError_code .integrityError))

/-! A symbol exchanged for the other one (R113, R217). -/

theorem otherSymbol_symbol (d : Bool) : otherSymbol sbx (symbol sbx d) = symbol sbx (!d) := by cases d <;> rfl

/-- In a byte's symbols it flips one bit, counted from the most significant. -/
theorem modify_byteSymbols (b : Byte) {i : Nat} (hi : i < 8) :
    (byteSymbols b).modify i (otherSymbol sbx) = byteSymbols (b ^^^ (1#8 <<< (7 - i))) := by
  have symbols (c : Byte) : byteSymbols c = (List.range 8).map fun m => symbol sbx (c.getLsbD (7 - m)) :=
    byteSymbols_eq_map c
  rw [symbols, symbols]
  refine List.ext_getElem (by simp) fun m hm _ => ?_
  have hm : m < 8 := by simpa using hm
  have flipped : (b ^^^ (1#8 <<< (7 - i))).getLsbD (7 - m) = (b.getLsbD (7 - m) ^^ decide (i = m)) := by
    have one : (1#8 <<< (7 - i)).getLsbD (7 - m) = decide (i = m) := by
      rw [← BitVec.twoPow_eq, BitVec.getLsbD_twoPow, decide_eq_true (by omega), Bool.true_and]
      exact decide_eq_decide.2 (by omega)
    rw [BitVec.getLsbD_xor, one]
  rw [List.getElem_modify, List.getElem_map, List.getElem_map, List.getElem_range, flipped, otherSymbol_symbol]
  split_ifs with h <;> simp [h]

/-- Exchanging a symbol of a byte string's symbols flips one bit of one byte. -/
theorem flipSymbol_symbolsOfBytes (before after : List Byte) (b : Byte) {i : Nat} (hi : i < 8) :
    flipSymbol (symbolsOfBytes (before ++ b :: after)) (8 * before.length + i) =
      symbolsOfBytes (before ++ (b ^^^ (1#8 <<< (7 - i))) :: after) := by
  have skip (l m : List Byte) (j : Nat) (f : Byte → Byte) : (l ++ m).modify (l.length + j) f = l ++ m.modify j f :=
    List.modifyTailIdx_add _ _ _ _
  have inside (l m : List Byte) {j : Nat} (f : Byte → Byte) (hj : j < l.length) :
      (l ++ m).modify j f = l.modify j f ++ m := by
    refine List.ext_getElem? fun n => ?_
    grind
  rw [flipSymbol, symbolsOfBytes_append, symbolsOfBytes_cons, ← length_symbolsOfBytes, skip, inside _ _ _ hi,
    modify_byteSymbols b hi, symbolsOfBytes_append, symbolsOfBytes_cons]

/-- A byte string is determined by its symbols: the deserializer gives it back. -/
theorem symbolsOfBytes_injective : Function.Injective symbolsOfBytes := fun bs cs h => by
  obtain ⟨t, rs, hrun, hbs, -⟩ := runCmds_symbolsOfBytes (s := State.reset) bs rfl rfl
  obtain ⟨u, qs, hrun', hcs, -⟩ := runCmds_symbolsOfBytes (s := State.reset) cs rfl rfl
  rw [h, hrun'] at hrun
  cases hrun
  exact hbs.symm.trans hcs

/-- Any symbol of the payload stands for one bit of one of its bytes. -/
theorem exists_flipped_payload {k : Nat} (hk : k < 8 * enc.length) (w : CrcWord) (salt : Vector Byte 8) :
    ∃ enc' : List Byte, enc' ≠ [] ∧ enc' ≠ enc ∧ crc32 sbx enc' ≠ crc32 sbx enc ∧
      flipSymbol (symbolsOfBytes (frameBytes enc w salt)) k = symbolsOfBytes (frameBytes enc' w salt) := by
  obtain ⟨before, b, after, rfl, hlen⟩ :
      ∃ (before : List Byte) (b : Byte) (after : List Byte), enc = before ++ b :: after ∧ before.length = k / 8 := by
    have place : k / 8 < enc.length := by omega
    refine ⟨enc.take (k / 8), enc[k / 8], enc.drop (k / 8 + 1), ?_, List.length_take_of_le place.le⟩
    rw [List.getElem_cons_drop, List.take_append_drop]
  have hbit : k % 8 < 8 := Nat.mod_lt k (by decide)
  have other := flippedBit_ne b (j := 7 - k % 8) (by omega)
  have flip := flipSymbol_symbolsOfBytes before (after ++ (checksumBytes w ++ salt.toList)) b hbit
  rw [hlen, Nat.div_add_mod] at flip
  refine ⟨before ++ (b ^^^ (1#8 <<< (7 - k % 8))) :: after, by simp, by simpa using other,
    crc32_ne_of_byte_ne (by decide) before after other, ?_⟩
  simpa [frameBytes] using flip

/-! The decoder on any text (R211, R215). -/

/-- The decoder's first session over any text. -/
theorem runCmds_deserializeCmds (text : List Byte) (hs : s.err = 0) :
    ∃ t u rs, runCmds (deserializeCmds text) s = some (u, rs) ∧ SameCrc s u ∧
      Deserialized (decide (text ≠ [])) (text.filter (accepted sbx)) t (bytesOf rs) ∧
      u.err = t.streamError.elim 0 ErrorKind.code := by
  obtain ⟨t, rs, hrun, same, ht⟩ := exists_deserialized text (deserialized_clearCodec hs)
  obtain ⟨u, run⟩ := exists_runs .desEnd t
  have answer := run.desEnd_rsp ht.err
  have bytes : bytesOf (Rsp.ack :: (rs ++ [t.streamError.elim Rsp.pass fun e => Rsp.err e.code])) = bytesOf rs := by
    rw [← List.singleton_append, bytesOf_append, bytesOf_append]
    cases t.streamError <;> exact List.append_nil _
  refine ⟨t, u, _, runCmds_cons_of_runs (.desInit hs) rfl (runCmds_append hrun (runCmds_singleton run answer)),
    SameCrc.trans same (run.sameCrc rfl nofun), bytes ▸ ht, run.desEnd_err ht.err⟩

/-- A text on which `DES.END` finds an error fails with it, and the host resets (R215). -/
theorem hostDecrypt_of_streamError {u : State} {e : ErrorKind} (hkey : key ≠ []) (hs : s.err = 0)
    (hrun : runCmds (deserializeCmds text) s = some (u, rs)) (hu : u.err = e.code) :
    ∃ v, hostDecrypt key text s = (v, .failed e) ∧ SameRegs State.reset v := by
  obtain ⟨v, hv⟩ := hostSession_of_faulting_run (rst_notMem_deserializeCmds text) hs hrun
    (by rw [hu]; exact e.code_ne_zero)
  refine ⟨v.clearAll.respond .ack, ?_, (sameRegs_respond_right _).2 (sameRegs_reset_clearAll v)⟩
  rw [hostDecrypt_eq text s hkey, hv, hu, hostError_code, hostBind_failed]

/-- A text of at most 12 whole bytes fails before the CRC unit is used (R211). -/
theorem hostDecrypt_of_short {u : State} (hkey : key ≠ []) (hs : s.err = 0)
    (hrun : runCmds (deserializeCmds text) s = some (u, rs)) (hu : u.err = 0) (short : (bytesOf rs).length ≤ 12) :
    hostDecrypt key text s = (u, .failed .invalidFormat) := by
  rw [hostDecrypt_eq text s hkey, hostSession_of_fault_free_run (rst_notMem_deserializeCmds text) hs hrun hu,
    hostBind_ok, verifyFrame, if_pos short]

end Sys2Proof.Machine
end

section
/-! The host's transform around the machine (45_frame_protocol.md section 4). -/

namespace Sys2Proof.Machine

/-- Settles O55: the frame's checksum matches, and the key that enciphered the payload deciphers it. -/
theorem frameRoundTrip : Obligations.FrameRoundTrip := by
  intro key plain salt s s' hkey hs hs'
  obtain ⟨enc, henc, hlen, hback⟩ := exists_encryptedPayload hkey salt plain
  obtain ⟨u, hu⟩ := hostEncrypt_of_payload hs henc
  obtain ⟨u', hu'⟩ := hostDecrypt_of_match hkey hs' (by omega) salt hback
  refine ⟨u, _, u', hu, ?_, ?_⟩
  · rw [length_symbolsOfBytes, length_frameBytes, hlen]
  · rw [hu', hlen, Nat.add_sub_cancel, List.take_left]

/-- Settles O56: the comparison does not read the key. -/
theorem wrongKeyUndetected : Obligations.WrongKeyUndetected := by
  intro key key' plain salt s s' hkey hkey' hs hs'
  obtain ⟨enc, henc, hlen, -⟩ := exists_encryptedPayload hkey salt plain
  obtain ⟨payload, hpayload, -⟩ := exists_cipher hkey' enc
  obtain ⟨u, hu⟩ := hostEncrypt_of_payload hs henc
  obtain ⟨u', hu'⟩ := hostDecrypt_of_match hkey' hs' (by omega) salt hpayload
  refine ⟨u, _, u', payload, hu, by rw [henc]; exact hpayload, ?_⟩
  rw [hu', hlen, Nat.add_sub_cancel]

/-- Settles O57: `DES.END`'s error is the decoder's, and a text without one that is too short fails next. -/
theorem hostErrors : Obligations.HostErrors := by
  refine ⟨fun key text s hkey hs => ?_, fun salt plain s => rfl⟩
  obtain ⟨t, u, rs, hrun, same, ht, hu⟩ := runCmds_deserializeCmds text hs
  obtain ⟨empty, unaccepted, offNibble, oddNibbles, whole⟩ := ht.streamError_of_text
  cases he : t.streamError with
  | some e =>
    rw [he] at hu empty unaccepted offNibble oddNibbles whole
    obtain ⟨v, hv, reset⟩ := hostDecrypt_of_streamError hkey hs hrun hu
    have failed {k : ErrorKind} (hk : some e = some k) :
        (HostResult.failed e : HostResult (List Byte)) = .failed k ∧ SameRegs State.reset v :=
      ⟨congrArg _ (Option.some.inj hk), reset⟩
    exact ⟨v, _, hv, fun h => failed (empty h), fun h h' => failed (unaccepted h h'), fun h => failed (offNibble h),
      fun h => failed (oddNibbles h), fun h _ h' => nomatch whole h h'⟩
  | none =>
    rw [he] at hu empty unaccepted offNibble oddNibbles
    obtain ⟨⟨v, r⟩, hv⟩ : ∃ result, hostDecrypt key text s = result := ⟨_, rfl⟩
    refine ⟨v, r, hv, fun h => (nomatch empty h), fun h h' => (nomatch unaccepted h h'),
      fun h => (nomatch offNibble h), fun h => (nomatch oddNibbles h), fun _ few _ => ?_⟩
    have short : (bytesOf rs).length ≤ 12 := by
      rw [ht.length]
      exact Nat.div_le_of_le_mul few
    cases hv.symm.trans (hostDecrypt_of_short hkey hs hrun hu short)
    exact ⟨rfl, same, hu⟩

/-- Settles O58: the exchanged symbol flips one bit of the payload, whose checksum is then not the one received
(R113). -/
theorem hostTamperDetected : Obligations.HostTamperDetected := by
  intro key key' plain salt s s' k hkey hkey' hs hs' hk
  obtain ⟨enc, henc, hlen, -⟩ := exists_encryptedPayload hkey salt plain
  rw [← hlen] at hk
  obtain ⟨u, hu⟩ := hostEncrypt_of_payload hs henc
  obtain ⟨enc', nonempty, hne, hcrc, hflip⟩ := exists_flipped_payload hk (crc32 sbx enc) salt
  obtain ⟨u', hu', reset⟩ := hostDecrypt_of_mismatch hkey' hs' nonempty salt hcrc
  refine ⟨u, _, u', hu, fun heq => hne ?_, by rw [hflip]; exact hu', reset⟩
  rw [hflip] at heq
  exact List.append_left_injective _ (List.append_left_injective _ (symbolsOfBytes_injective heq))

/-- Settles O59: a session that ends in an error ends in `RST`, and one on a faulted machine ends at its first
command. -/
theorem hostResetsAfterError : Obligations.HostResetsAfterError := by
  refine ⟨fun key text plain salt s hkey => ?_, fun key text plain salt s kind hkey hs => ?_⟩
  · obtain ⟨enc, henc, -⟩ := exists_encryptedPayload hkey salt plain
    rw [hostEncrypt_eq s henc, hostDecrypt_eq text s hkey]
    exact ⟨hostBind_err (hostSession_err (rst_notMem_checksumCmds enc) (.inr nofun))
        fun _ rs ht => serializeFrame_err enc salt rs ht,
      hostBind_err (hostSession_err (rst_notMem_deserializeCmds text) (.inr nofun))
        fun _ rs ht => verifyFrame_err key rs ht⟩
  · obtain ⟨enc, henc, -⟩ := exists_encryptedPayload hkey salt plain
    have faulted : s.err ≠ 0 := hs ▸ kind.code_ne_zero
    refine ⟨s.clearAll.respond .ack, ?_, ?_, (sameRegs_respond_right _).2 (sameRegs_reset_clearAll s)⟩
    · rw [hostEncrypt_eq s henc, checksumCmds, hostSession_of_faulted (c := .crcInit) _ nofun faulted, hs,
        hostError_code, hostBind_failed]
    · rw [hostDecrypt_eq text s hkey, deserializeCmds, hostSession_of_faulted (c := .desInit) _ nofun faulted, hs,
        hostError_code, hostBind_failed]

end Sys2Proof.Machine
end
